-- ==== Sys2Proof/Word.lean ====
section
/-! DEFINITION. The plain value types of the block (rule R9). Its third value type, `Time`, "is a natural
number of microseconds" with an unbounded range (R9, R177), and is written `Nat`. -/

namespace Sys2Proof

/-- `Bit` is {0, 1} (R9): `false` is 0 and `true` is 1. -/
abbrev Bit := Bool

/-- `Byte` is an 8-bit unsigned value, bit 7 its most significant bit (R9). -/
abbrev Byte := BitVec 8

end Sys2Proof
end

