-- ==== Sys2Proof/Config.lean ====
section
/-! DEFINITION. The configuration of rule R7: one field for each named parameter, the reference
configuration RC, and the checksum function that the source leaves open. -/

namespace Sys2Proof

/-- `BitOrder` (R7, R72): where in a byte the first bit received lands. -/
inductive BitOrder where
  /-- The first bit received ends as bit 7. -/
  | msbFirst
  /-- The first bit received ends as bit 0. -/
  | lsbFirst
deriving DecidableEq, Repr

/-- `ChecksumFn` (R7, R136), a total function from a list of bytes to a byte, named by plain data so
that a configuration can be compared and written out. -/
inductive ChecksumFn where
  /-- The reference function `Sum8` of R136. -/
  | sum8
  /-- Any other function: number `id` of the uninterpreted family `Config.givenChecksum`. -/
  | given (id : Nat)
deriving DecidableEq, Repr

/-- A checksum function the implementation supplies. It has no body on purpose (R136: "A model must
therefore take ChecksumFn as a parameter"): whatever is proved of it holds for every function. -/
opaque Config.givenChecksum : Nat → List Byte → Byte

/-- The parameters of R7, in the table's order. `BitCountMax`, which R7 fixes, is
`Config.bitCountMax` below. -/
structure Config where
  /-- `MaxFrameBytes` (M): bytes a frame buffer holds. -/
  maxFrameBytes : Nat
  /-- `QueueCapacity` (Q): panel-frame FIFO slots. -/
  queueCapacity : Nat
  /-- `SampleOffset` (So): delay from a sampled edge to its data sample. -/
  sampleOffset : Nat
  /-- `LongHighThreshold` (Lh): high-period length above which the device window begins. -/
  longHighThreshold : Nat
  /-- `IdleThreshold` (Ti): edge-free time above which the frame ends. -/
  idleThreshold : Nat
  /-- `TimerPeriod` (Tp): boundary timer period. No step reads it (R110). -/
  timerPeriod : Nat
  /-- `SampleOnRising` (Sr). -/
  sampleOnRising : Bit
  /-- `SampleOnFalling` (Sf). -/
  sampleOnFalling : Bit
  /-- `BitOrder`. -/
  bitOrder : BitOrder
  /-- `ChecksumFn`. -/
  checksumFn : ChecksumFn
  /-- `ChecksumSkipStop`: leave byte 1 out of the checksum span. -/
  checksumSkipStop : Bit
  /-- `MinValidBytes`: fewest complete bytes a valid panel frame has. -/
  minValidBytes : Nat
  /-- `DeviceChecksum`: device frames must also pass the checksum. -/
  deviceChecksum : Bit
  /-- `InjectStartBit` (Is): device-window bit index where a key's first bit is driven. -/
  injectStartBit : Nat
  /-- `OutputInvert` (Oi): the data-out level is the inverse of the job bit. -/
  outputInvert : Bit
  /-- `MaxJobKeys` (K): longest key sequence a job holds. -/
  maxJobKeys : Nat
deriving DecidableEq, Repr

/-- `BitCountMax`, the saturation value of the per-frame bit counter, which R7 fixes at 65535. -/
def Config.bitCountMax : Nat := 65535

/-- The reference configuration RC, the last column of R7. Its times are not bus values. -/
def Config.rc : Config where
  maxFrameBytes := 4
  queueCapacity := 2
  sampleOffset := 10
  longHighThreshold := 100
  idleThreshold := 500
  timerPeriod := 250
  sampleOnRising := true
  sampleOnFalling := true
  bitOrder := .msbFirst
  checksumFn := .sum8
  checksumSkipStop := false
  minValidBytes := 3
  deviceChecksum := false
  injectStartBit := 0
  outputInvert := false
  maxJobKeys := 4

end Sys2Proof
end

