-- ==== Sys2Proof/Syntax.lean ====
section
/-! DEFINITION. The ten operations of the block (rule R77), and the items their encodings are made
of. -/

namespace Sys2Proof

/-- The operations at the block's interfaces, one constructor for each row of
`spec/opcode_table.json` (R77, R82). -/
inductive Instr where
  /-- `INIT w` (R160). -/
  | init (w : Bit)
  /-- `EDGE l, t` (R92). -/
  | edge (l : Bit) (t : Nat)
  /-- `SAMPLE b` (R95). -/
  | sample (b : Bit)
  /-- `TICK t` (R111). -/
  | tick (t : Nat)
  /-- `POP_PANEL` (R121). -/
  | popPanel
  /-- `POP_DEVICE` (R123). -/
  | popDevice
  /-- `CLR_DOVF` (R127). -/
  | clrDovf
  /-- `CLR_BOVF` (R128). -/
  | clrBovf
  /-- `STAGE_KEY k` (R146). -/
  | stageKey (k : Byte)
  /-- `STAGE_SEQ [k_0, ..., k_(n-1)]` (R147). -/
  | stageSeq (ks : List Byte)
deriving DecidableEq, Repr

/-- One item of an encoded operation: "an 8-bit operation word, followed by its operands as values of
their types" (R77). A Time operand is "carried whole" (R78), so it is one item whatever its size. -/
inductive Datum where
  /-- An operation word, a key code or a key count. -/
  | byte (b : Byte)
  /-- A Time operand. -/
  | time (t : Nat)
deriving DecidableEq, Repr

end Sys2Proof
end

