-- ==== Sys2Proof/WellFormed.lean ====
section
/-! DEFINITION. Well-formedness of a configuration (rule R8) and of an operation (rule R78). -/

namespace Sys2Proof

/-- A configuration is well-formed when every constraint of R8 holds, in R8's order. -/
def Config.wf (c : Config) : Bool :=
  decide (3 ≤ c.maxFrameBytes ∧ c.maxFrameBytes ≤ 8192) &&
  decide (1 ≤ c.queueCapacity) &&
  decide (0 < c.sampleOffset ∧ c.sampleOffset < c.idleThreshold) &&
  decide (c.longHighThreshold < c.idleThreshold) &&
  decide (0 < c.timerPeriod) &&
  (c.sampleOnRising || c.sampleOnFalling) &&
  decide (1 ≤ c.maxJobKeys) &&
  decide (c.minValidBytes = 3)

/-- An operation is well-formed when its operands have an encoding: the key count n of STAGE_SEQ is a
Byte (R78). Every other operand is any value of its type. -/
def Instr.wf : Instr → Bool
  | .init _ => true
  | .edge _ _ => true
  | .sample _ => true
  | .tick _ => true
  | .popPanel => true
  | .popDevice => true
  | .clrDovf => true
  | .clrBovf => true
  | .stageKey _ => true
  | .stageSeq ks => decide (ks.length ≤ 255)

end Sys2Proof
end

