-- ==== Sys2Proof/Decode.lean ====
section
/-! DEFINITION. Decoding and encoding of operation words and their operands (rules R77 to R81). -/

namespace Sys2Proof

/-- The rows of the opcode map (R77, R79), without their operands. -/
inductive Opcode where
  | init | edge | sample | tick | popPanel | popDevice | clrDovf | clrBovf | stageKey | stageSeq
deriving DecidableEq, Repr

/-- Why a sequence of items is not an operation. -/
inductive DecodeError where
  /-- There is no item at all: no operation has been given. -/
  | noOperation
  /-- The word matches no row of R77 (R80: `refuse(ReservedOperation)`). -/
  | reservedOperation (w : Byte)
  /-- A Time stands where an operation word is due. -/
  | notAnOperationWord
  /-- An operand of the word is absent, or is an item of the other type. -/
  | missingOperand (w : Byte)
deriving DecidableEq, Repr

/-- One row of the table of R77. -/
structure OpcodeRow where
  op : Opcode
  /-- The table's Match column. -/
  pattern : Byte
  /-- The table's Mask column. -/
  mask : Byte
deriving DecidableEq, Repr

/-- The table of R77, row by row. -/
def opcodeTable : List OpcodeRow :=
  [ ⟨.init, 0x10#8, 0xFE#8⟩, ⟨.edge, 0x20#8, 0xFE#8⟩, ⟨.sample, 0x30#8, 0xFE#8⟩, ⟨.tick, 0x40#8, 0xFF#8⟩,
    ⟨.popPanel, 0x50#8, 0xFF#8⟩, ⟨.popDevice, 0x51#8, 0xFF#8⟩, ⟨.clrDovf, 0x61#8, 0xFF#8⟩,
    ⟨.clrBovf, 0x62#8, 0xFF#8⟩, ⟨.stageKey, 0x70#8, 0xFF#8⟩, ⟨.stageSeq, 0x71#8, 0xFF#8⟩ ]

/-- A row matches a word when the word, masked, is the row's pattern. -/
def OpcodeRow.accepts (r : OpcodeRow) (w : Byte) : Bool := w &&& r.mask == r.pattern

/-- The row of R77 that a word matches; `none` for a reserved word (R80). -/
def opcodeOf (w : Byte) : Option Opcode :=
  (opcodeTable.find? fun r => r.accepts w).map fun r => r.op

/-- The word fields w, l and d: "bit 0 of the word" (R78). -/
def wordArg (w : Byte) : Bit := w.getLsbD 0

/-- The first `n` items as bytes, and the items after them. -/
def takeBytes : Nat → List Datum → Option (List Byte × List Datum)
  | 0, ds => some ([], ds)
  | n + 1, .byte b :: ds => (takeBytes n ds).map fun r => (b :: r.1, r.2)
  | _ + 1, _ => none

/-- The operation of a word `w` whose row is `op`, with its operands taken from the items after the
word, and the items after them (R78). -/
def decodeOperands (op : Opcode) (w : Byte) (ds : List Datum) :
    Except DecodeError (Instr × List Datum) :=
  match op, ds with
  | .init, ds => .ok (.init (wordArg w), ds)
  | .edge, .time t :: rest => .ok (.edge (wordArg w) t, rest)
  | .sample, ds => .ok (.sample (wordArg w), ds)
  | .tick, .time t :: rest => .ok (.tick t, rest)
  | .popPanel, ds => .ok (.popPanel, ds)
  | .popDevice, ds => .ok (.popDevice, ds)
  | .clrDovf, ds => .ok (.clrDovf, ds)
  | .clrBovf, ds => .ok (.clrBovf, ds)
  | .stageKey, .byte k :: rest => .ok (.stageKey k, rest)
  | .stageSeq, .byte n :: rest =>
    match takeBytes n.toNat rest with
    | some r => .ok (.stageSeq r.1, r.2)
    | none => .error (.missingOperand w)
  | _, _ => .error (.missingOperand w)

/-- The operation at the head of a sequence of items, and the items after it. Total: every other
sequence is an error by name (R78, R80, R81). -/
def decode : List Datum → Except DecodeError (Instr × List Datum)
  | [] => .error .noOperation
  | .time _ :: _ => .error .notAnOperationWord
  | .byte w :: ds =>
    match opcodeOf w with
    | none => .error (.reservedOperation w)
    | some op => decodeOperands op w ds

/-- An operation word with a one-bit argument at bit 0 (R77). -/
def withArg (pattern : Byte) (b : Bit) : Byte := pattern ||| (BitVec.ofBool b).setWidth 8

/-- The encoding of an operation, from the table of R77 and the operand order of R78. A key count is
kept to the Byte it is given in, so the encoding stands for the operation when `Instr.wf` holds. -/
def encode : Instr → List Datum
  | .init w => [.byte (withArg 0x10#8 w)]
  | .edge l t => [.byte (withArg 0x20#8 l), .time t]
  | .sample b => [.byte (withArg 0x30#8 b)]
  | .tick t => [.byte 0x40#8, .time t]
  | .popPanel => [.byte 0x50#8]
  | .popDevice => [.byte 0x51#8]
  | .clrDovf => [.byte 0x61#8]
  | .clrBovf => [.byte 0x62#8]
  | .stageKey k => [.byte 0x70#8, .byte k]
  | .stageSeq ks => .byte 0x71#8 :: .byte (BitVec.ofNat 8 ks.length) :: ks.map Datum.byte

/-- The encodings of a sequence of operations, one after another (R82). -/
def encodeAll (is : List Instr) : List Datum := is.flatMap encode

/-- The items of the operation whose bits, numbered from the first word's bit 0, are the low `nbits`
bits of `w`: its word is bits 7..0, a key or a key count is bits 15..8, the keys of a sequence follow
byte by byte, and a Time is the whole of the bits from bit 8 on (R78). -/
def wordItems (nbits w : Nat) : List Datum :=
  let v := w % 2 ^ nbits
  let byteAt (i : Nat) : Byte := BitVec.ofNat 8 (v / 2 ^ (8 * i))
  .byte (byteAt 0) ::
    match opcodeOf (byteAt 0) with
    | some .edge => [.time (v / 2 ^ 8)]
    | some .tick => [.time (v / 2 ^ 8)]
    | some .stageKey => [.byte (byteAt 1)]
    | some .stageSeq =>
      .byte (byteAt 1) :: (List.range (byteAt 1).toNat).map fun i => .byte (byteAt (i + 2))
    | _ => []

/-- The operation the decoder reads from an operation whose bits are `w`, numbered as
`spec/opcode_table.json` numbers them; `none` where the decoder refuses. -/
def decodeTableWord (nbits w : Nat) : Option Instr :=
  match decode (wordItems nbits w) with
  | .ok r => some r.1
  | .error _ => none

end Sys2Proof
end

