-- ==== Sys2Proof/Machine/State.lean ====
section
/-! DEFINITION. The state of the block (rules R20 to R36): plain data, one record for each rule that
names a group of fields, and the state at power-up (rule R35). -/

namespace Sys2Proof.Machine

/-- `Dir` (R9): the two disjoint windows of a bus cycle. -/
inductive Dir where
  | panel
  | device
deriving DecidableEq, Repr

/-- The model-fault codes of R167. They are values of the fault register, not ends of a run. -/
inductive FaultCode where
  /-- F1: t is earlier than the latest timestamp taken. -/
  | timeReversal
  /-- F2: an edge before the pending sample is due. -/
  | sampleOverrun
  /-- F3: the edge's level is the known clock level. -/
  | notATransition
deriving DecidableEq, Repr

/-- What a poll or a staging returns to the consumer (R85). -/
inductive Result where
  | none
  | accept
  | reject
deriving DecidableEq, Repr

/-- What the framer holds for one direction (R23). -/
structure Framer where
  /-- `buf[d]`: M bytes, byte 0 first. -/
  buf : List Byte
  /-- `byteCount[d]`: complete bytes, 0..M. -/
  byteCount : Nat
  /-- `bitInByte[d]`: bits already placed in the byte in progress, 0..7. -/
  bitInByte : Nat
  /-- `bitCount[d]`: every bit sampled for d in this frame, saturating at BitCountMax. -/
  bitCount : Nat
  /-- `trunc[d]`: a bit of this frame was discarded because the buffer was full. -/
  trunc : Bit
deriving DecidableEq, Repr

/-- What the edge detector holds (R24). -/
structure EdgeDetector where
  /-- `clk`: the last clock level seen. -/
  clk : Option Bit
  /-- `tLastEdge`: the time of the last EDGE. -/
  tLastEdge : Option Nat
  /-- `tLastRise`: the time of the last rising EDGE in the current frame. -/
  tLastRise : Option Nat
  /-- `tLastEvent`: the latest timestamp taken. -/
  tLastEvent : Option Nat
  /-- `dir`: the active direction. -/
  dir : Dir
deriving DecidableEq, Repr

/-- What the phase sampler holds (R25): the sample in progress. -/
structure PhaseSampler where
  /-- `sampPending`: a sampled edge has armed a sample not yet taken. -/
  pending : Bit
  /-- `sampDue`: when the pending sample is taken. -/
  due : Nat
  /-- `sampDir`: the direction the pending sample's bit goes to. -/
  dir : Dir
deriving DecidableEq, Repr

/-- The two sticky status flags (R26). -/
structure StickyFlags where
  /-- `DataOverflow`. -/
  dataOverflow : Bit
  /-- `BufferOverflow`. -/
  bufferOverflow : Bit
deriving DecidableEq, Repr

/-- A slot (R27): a frame and its capture metadata. -/
structure Slot where
  /-- M bytes. -/
  bytes : List Byte
  /-- Complete bytes, 0..M. -/
  byteCount : Nat
  /-- Bits sampled, 0..BitCountMax. -/
  bitCount : Nat
deriving DecidableEq, Repr

/-- The panel-frame FIFO (R28). -/
structure FrameQueue where
  /-- `fifo`: Q slots. -/
  fifo : List Slot
  /-- `head`: the index of the oldest frame, 0..Q-1. -/
  head : Nat
  /-- `count`: the number of queued frames, 0..Q. -/
  count : Nat
deriving DecidableEq, Repr

/-- The device-frame latch (R29). -/
structure DeviceLatch where
  /-- `devLatch`: the last device frame handed off and not yet polled. -/
  slot : Slot
  /-- `devFull`. -/
  full : Bit
deriving DecidableEq, Repr

/-- The output registers the consumer reads after a poll (R30). -/
structure OutputRegs where
  /-- `PanelOut`. -/
  panelOut : Slot
  /-- `PanelOutValid`. -/
  panelOutValid : Bit
  /-- `DeviceOut`. -/
  deviceOut : Slot
  /-- `DeviceOutValid`. -/
  deviceOutValid : Bit
deriving DecidableEq, Repr

/-- What the bit injector holds (R31). -/
structure Injector where
  /-- `writePending`: a staged job is in flight. -/
  writePending : Bit
  /-- `job`: the key codes of the job, `[]` when none. -/
  job : List Byte
  /-- `keyIdx`: index in `job` of the key being emitted. -/
  keyIdx : Nat
  /-- `bitIdx`: bits of that key already driven in this window, 0..7. -/
  bitIdx : Nat
  /-- `writeReady`: the handshake flag. -/
  writeReady : Bit
  /-- `DOUT`: the data-out port's value; `none` is released. -/
  dout : Option Bit
deriving DecidableEq, Repr

/-- The control state (R32). -/
structure Control where
  /-- `bound`: INIT has run. -/
  bound : Bit
  /-- `writeEnabled`: a write pin was supplied. -/
  writeEnabled : Bit
deriving DecidableEq, Repr

/-- The whole state. Every field but `cfg`, `result` and `input` is the spec's; those three are the
model's own: the configuration the spec passes as an argument (R7), the consumer port's result (R22,
R85), and the operations given to the block and not yet taken (R21, R170). -/
structure State where
  /-- The configuration (R7). No step writes it. -/
  cfg : Config
  /-- The framer's fields for direction Panel (R23). -/
  panel : Framer
  /-- The framer's fields for direction Device (R23). -/
  device : Framer
  /-- The edge detector (R24). -/
  edge : EdgeDetector
  /-- The phase sampler (R25). -/
  samp : PhaseSampler
  /-- The sticky flags (R26). -/
  flags : StickyFlags
  /-- The panel-frame FIFO (R28). -/
  queue : FrameQueue
  /-- The device-frame latch (R29). -/
  latch : DeviceLatch
  /-- The output registers (R30). -/
  out : OutputRegs
  /-- The bit injector (R31). -/
  inj : Injector
  /-- The control state (R32). -/
  ctl : Control
  /-- The model-fault register (R33). -/
  fault : Option FaultCode
  /-- The result of the latest operation that returned one (R85); `none` before the first. -/
  result : Option Result
  /-- The operations given to the block and not yet taken, encoded (R77, R170). -/
  input : List Datum
deriving DecidableEq, Repr

/-- The four reasons why there is no step (R11, "no step, when the step is not enabled"): the block
waits and its state stays as it is. -/
inductive Fault where
  /-- Raised by `step` when no operation has been given. Safe: the spec has no step there (R21). -/
  | noOperation
  /-- Raised by every operation once the fault register is set (R33, R167). Safe: the spec has no
  step there. -/
  | modelFaulted
  /-- Raised by EDGE and TICK timed at or after `sampDue` while a sample is pending: SAMPLE goes first
  (R92, R96, R111). Safe: the spec has no step there. -/
  | sampleFirst
  /-- Raised by SAMPLE when no sample is pending (R95). Safe: the spec has no step there. -/
  | noSamplePending
deriving DecidableEq, Repr

/-- What the model gives no meaning at all (R168). -/
inductive Refusal where
  /-- Raised by `exec` for an operation without a meaning; none is left. Safe. -/
  | notModelled (mnemonic : String)
  /-- Raised by `step` for a reserved operation word (R80). Safe. -/
  | reservedOperation (w : Byte)
  /-- Raised by every operation, and by `step`, in a configuration that breaks R8. Safe. -/
  | illFormedConfiguration
  /-- Raised by the trace assembler for CLOCKBITS or FRAMEBITS outside its conditions (R83, R84).
  Safe. -/
  | badPseudoOperation
  /-- Raised by `step` when a Time stands where an operation word is due (R77). Safe. -/
  | notAnOperationWord
  /-- Raised by `step` when a word's operand is absent or of the other type (R78). Safe. -/
  | missingOperand (w : Byte)
  /-- Raised by the trace assembler for a line that does not have the form of R82. Safe. -/
  | badTraceLine
deriving DecidableEq, Repr

/-- The value of a direction's framer fields at power-up, after INIT and after a hand-off (R35, R114):
a zeroed buffer of M bytes. -/
def Framer.empty (c : Config) : Framer where
  buf := List.replicate c.maxFrameBytes 0#8
  byteCount := 0
  bitInByte := 0
  bitCount := 0
  trunc := false

/-- `EmptySlot` (R27): every byte 0x00, byteCount 0 and bitCount 0. -/
def Slot.empty (c : Config) : Slot where
  bytes := List.replicate c.maxFrameBytes 0#8
  byteCount := 0
  bitCount := 0

/-- The power-up state of configuration `c` (R35, "Power-up" column). -/
def State.resetWith (c : Config) : State where
  cfg := c
  panel := Framer.empty c
  device := Framer.empty c
  edge := { clk := none, tLastEdge := none, tLastRise := none, tLastEvent := none, dir := .panel }
  samp := { pending := false, due := 0, dir := .panel }
  flags := { dataOverflow := false, bufferOverflow := false }
  queue := { fifo := List.replicate c.queueCapacity (Slot.empty c), head := 0, count := 0 }
  latch := { slot := Slot.empty c, full := false }
  out := { panelOut := Slot.empty c, panelOutValid := false,
           deviceOut := Slot.empty c, deviceOutValid := false }
  inj := { writePending := false, job := [], keyIdx := 0, bitIdx := 0, writeReady := false,
           dout := none }
  ctl := { bound := false, writeEnabled := false }
  fault := none
  result := none
  input := []

/-- The power-up state of the reference configuration RC. DESIGN CHOICE: the spec gives a configuration
as an argument, and R35's power-up column holds for each (`State.resetWith`). -/
def State.reset : State := State.resetWith Config.rc

end Sys2Proof.Machine
end

