-- ==== Sys2Proof/Machine/Operands.lean ====
section
/-! DEFINITION. The bit-level operand forms: the place of a bit in a byte (rules R71, R72, R98), the
bit of a key that is driven (R150), and the tests on optional times. -/

namespace Sys2Proof.Machine

/-- `zext_8(b)` (R9). -/
def zextBit (b : Bit) : Byte := (BitVec.ofBool b).setWidth 8

/-- The width of byte `i` of a frame: byte 1 holds one bit, every other byte eight (R71, R98's `w`). -/
def byteWidth (i : Nat) : Nat := if i = 1 then 1 else 8

/-- The byte in progress after bit number `p` of it, `b`, is placed in `x` (R98). -/
def placeBit (order : BitOrder) (x : Byte) (p : Nat) (b : Bit) : Byte :=
  match order with
  | .msbFirst => (x <<< 1) ||| zextBit b
  | .lsbFirst => x ||| (zextBit b <<< p)

/-- Bit number `n` of a key in the order its bits are driven (R148, R150). -/
def keyBit (order : BitOrder) (k : Byte) (n : Nat) : Bit :=
  match order with
  | .msbFirst => k.getLsbD (7 - n)
  | .lsbFirst => k.getLsbD n

/-- `stored(n)`: the bits that `n` complete bytes hold (R73). -/
def stored (n : Nat) : Nat :=
  if n = 0 then 0 else if n = 1 then 8 else 8 * n - 7

/-- The most bits a frame buffer can hold, `8·M − 7` (R73). A frame with more is truncated (R76). -/
def maxStoredBits (c : Config) : Nat := 8 * c.maxFrameBytes - 7

/-- `u` is some time later than `t`: the test of TimeReversal (R92, R111). -/
def laterThan (u : Option Nat) (t : Nat) : Bool := u.any fun v => decide (t < v)

/-- `u` is some time and `t` is more than `d` after it: the tests of R91 and R111. -/
def elapsedOver (u : Option Nat) (t d : Nat) : Bool := u.any fun v => decide (v + d < t)

/-- The two window directions, for the loops over `Dir` (R114). -/
def Dir.all : List Dir := [.panel, .device]

/-- The numeric result codes of R85. -/
def Result.code : Result → Nat
  | .none => 0
  | .accept => 1
  | .reject => 2

end Sys2Proof.Machine
end

