-- ==== Sys2Proof/Machine/Ops.lean ====
section
/-! DEFINITION. The named operations over the state: the framer of a direction, the slot accesses of
rule R51, the outcomes of a step (R11), and a model fault (R167). -/

namespace Sys2Proof.Machine

/-- The three outcomes of an operation. -/
abbrev Out := Host.Outcome State Fault Refusal

/-- The framer fields of direction `d` (R23). -/
def State.framer (s : State) (d : Dir) : Framer :=
  match d with
  | .panel => s.panel
  | .device => s.device

/-- Write the framer fields of direction `d`. -/
def State.setFramer (s : State) (d : Dir) (f : Framer) : State :=
  match d with
  | .panel => { s with panel := f }
  | .device => { s with device := f }

/-- The storage spaces whose slots are read and written whole (R50). The output space has one slot for
each direction. -/
inductive Space where
  | fifo
  | devLatch
  | output
deriving DecidableEq, Repr

/-- `MemRead(space, i)` (R51): whole slot `i`. The output space's slot 0 is PanelOut and slot 1 is
DeviceOut. Past a space's last slot there is no access in the spec (R53); the operation answers
EmptySlot there, and no meaning asks for it in a state that keeps R36. -/
def State.memRead (s : State) (space : Space) (i : Nat) : Slot :=
  match space with
  | .fifo => s.queue.fifo.getD i (Slot.empty s.cfg)
  | .devLatch => if i = 0 then s.latch.slot else Slot.empty s.cfg
  | .output =>
    if i = 0 then s.out.panelOut else if i = 1 then s.out.deviceOut else Slot.empty s.cfg

/-- `MemWrite(space, i, x)` (R51): replace whole slot `i`; past a space's last slot nothing is
written. -/
def State.memWrite (s : State) (space : Space) (i : Nat) (x : Slot) : State :=
  match space with
  | .fifo => { s with queue := { s.queue with fifo := s.queue.fifo.set i x } }
  | .devLatch => if i = 0 then { s with latch := { s.latch with slot := x } } else s
  | .output =>
    if i = 0 then { s with out := { s.out with panelOut := x } }
    else if i = 1 then { s with out := { s.out with deviceOut := x } }
    else s

/-- Frame `i` of the queue, 0 the oldest: `fifo[(head + i) mod Q]` (R28). -/
def State.queueSlot (s : State) (i : Nat) : Slot :=
  s.memRead .fifo ((s.queue.head + i) % s.cfg.queueCapacity)

/-- The queued panel frames, oldest first (R28). -/
def State.queued (s : State) : List Slot := (List.range s.queue.count).map s.queueSlot

/-- The slot a direction's capture hands off (R112). -/
def Framer.slot (f : Framer) : Slot :=
  { bytes := f.buf, byteCount := f.byteCount, bitCount := f.bitCount }

/-- The test every operation starts with: an ill-formed configuration is refused as a whole (R8, R168),
and once the fault register is set there is no step (R33, R167). -/
def State.whenEnabled (s : State) (body : Out) : Out :=
  if s.cfg.wf = false then .refused .illFormedConfiguration
  else if s.fault.isSome then .fault .modelFaulted
  else body

/-- `raise Fault(code)` (R10, R167): the step's one effect is to set the fault register. There is no
trap entry: nothing is saved, no mode changes, and nothing returns from it (R173, R174). -/
def State.raise (s : State) (code : FaultCode) : Out := .next { s with fault := some code }

/-- `return r` (R10): the operation ends and `r` is given to the consumer (R85). -/
def State.answer (s : State) (r : Result) : Out := .next { s with result := some r }

/-- The state a TICK or EDGE timed `t` waits in: a sample is pending and due at or before `t`
(R92, R96, R111). -/
def State.sampleDueBy (s : State) (t : Nat) : Bool := s.samp.pending && decide (s.samp.due ≤ t)

/-- Record `t` as the latest timestamp taken (R24). -/
def State.stampEvent (s : State) (t : Nat) : State :=
  { s with edge := { s.edge with tLastEvent := some t } }

end Sys2Proof.Machine
end

