-- ==== Sys2Proof/Machine/Flags.lean ====
section
/-! DEFINITION. The two sticky flags and the error conditions (rules R26, R165, R166, R197). -/

namespace Sys2Proof.Machine

/-- The block's error conditions (R166). None of them stops a step or enters a handler (R165, R173). -/
inductive BlockError where
  | dataOverflow
  | bufferOverflow
  | integrityFailure
deriving DecidableEq, Repr

/-- The error codes of R166. -/
def BlockError.code : BlockError → Nat
  | .dataOverflow => 1
  | .bufferOverflow => 2
  | .integrityFailure => 3

/-- How a step records an error (R166): a sticky flag for the overflows, which stays 1 when it is 1
already (R26), and no flag for a failed check, whose record is the poll's result. -/
def State.record (s : State) (e : BlockError) : State :=
  match e with
  | .dataOverflow => { s with flags := { s.flags with dataOverflow := true } }
  | .bufferOverflow => { s with flags := { s.flags with bufferOverflow := true } }
  | .integrityFailure => s

/-- Clear DataOverflow (R127). -/
def State.clearDataOverflow (s : State) : State :=
  { s with flags := { s.flags with dataOverflow := false } }

/-- Clear BufferOverflow (R128). -/
def State.clearBufferOverflow (s : State) : State :=
  { s with flags := { s.flags with bufferOverflow := false } }

end Sys2Proof.Machine
end

