-- ==== Sys2Proof/Machine/Boundary.lean ====
section
/-! DEFINITION. The boundary timer and the hand-off: TICK (rules R110 to R118). -/

namespace Sys2Proof.Machine

/-- `FifoAppend(s)` (R113): queue a slot, or drop it and flag the loss when the FIFO is full. -/
def State.fifoAppend (s : State) (x : Slot) : State :=
  if s.queue.count < s.cfg.queueCapacity then
    let s' := s.memWrite .fifo ((s.queue.head + s.queue.count) % s.cfg.queueCapacity) x
    { s' with queue := { s'.queue with count := s.queue.count + 1 } }
  else s.record .bufferOverflow

/-- Put a device frame in the latch, over an unpolled one (R112, R116). -/
def State.latchDevice (s : State) (x : Slot) : State :=
  let s' := s.memWrite .devLatch 0 x
  { s' with latch := { s'.latch with full := true } }

/-- `ResetCapture()` (R114). -/
def State.resetCapture (s : State) : State :=
  { s with
    panel := Framer.empty s.cfg
    device := Framer.empty s.cfg
    edge := { s.edge with dir := .panel, tLastRise := none }
    inj := { s.inj with writeReady := false, bitIdx := 0, dout := none } }

/-- The panel part of a hand-off: only a direction with bits is stored (R112, R117). -/
def State.storePanel (s : State) : State :=
  if 0 < s.panel.bitCount then s.fifoAppend s.panel.slot else s

/-- The device part of a hand-off (R112, R117). -/
def State.storeDevice (s : State) : State :=
  if 0 < s.device.bitCount then s.latchDevice s.device.slot else s

/-- `HandOff()` (R112), one atomic part of a TICK. -/
def State.handOff (s : State) : State := s.storePanel.storeDevice.resetCapture

/-- A TICK timed `t` hands off: the bus has been idle for longer than Ti and some direction has a bit
(R111, R117). -/
def State.frameEnds (s : State) (t : Nat) : Bool :=
  elapsedOver s.edge.tLastEdge t s.cfg.idleThreshold &&
    (decide (0 < s.panel.bitCount) || decide (0 < s.device.bitCount))

/-- A TICK that is neither ignored nor a model fault (R111). -/
def State.takeTick (s : State) (t : Nat) : State :=
  if (s.stampEvent t).frameEnds t then (s.stampEvent t).handOff else s.stampEvent t

/-- TICK (R111): the boundary timer fires at time `t`. -/
def execTick (t : Nat) (s : State) : Out :=
  s.whenEnabled
    (if !s.ctl.bound then .next s
     else if s.sampleDueBy t then .fault .sampleFirst
     else if laterThan s.edge.tLastEvent t then s.raise .timeReversal
     else .next (s.takeTick t))

end Sys2Proof.Machine
end

