-- ==== Sys2Proof/Machine/Writer.lean ====
section
/-! DEFINITION. The writer's output stage: STAGE_KEY, STAGE_SEQ and the injection that EDGE runs
(rules R145 to R157). -/

namespace Sys2Proof.Machine

/-- A staging is turned away: not bound, writes disabled, a job pending, or a list of no or too many
keys (R145, R147). -/
def State.stageRejected (s : State) (ks : List Byte) : Bool :=
  !s.ctl.bound || !s.ctl.writeEnabled || s.inj.writePending ||
    decide (ks.length = 0) || decide (s.cfg.maxJobKeys < ks.length)

/-- The state with the job `ks` staged (R147). `writeReady` and DOUT are not the writer's (R149). -/
def State.withJob (s : State) (ks : List Byte) : State :=
  { s with inj := { s.inj with job := ks, keyIdx := 0, bitIdx := 0, writePending := true } }

/-- `STAGE_SEQ(ks)` (R147). -/
def State.stage (s : State) (ks : List Byte) : Out :=
  s.whenEnabled (if s.stageRejected ks then s.answer .reject else (s.withJob ks).answer .accept)

/-- STAGE_KEY (R146): `STAGE_SEQ([k])`. -/
def execStageKey (k : Byte) (s : State) : Out := s.stage [k]

/-- STAGE_SEQ (R147). -/
def execStageSeq (ks : List Byte) (s : State) : Out := s.stage ks

/-- The condition under which Inject drives a bit (R150). -/
def State.injects (s : State) (sampled : Bool) : Bool :=
  sampled && s.edge.dir == .device && s.inj.writeReady && s.inj.writePending &&
    s.ctl.writeEnabled &&
    (decide (0 < s.inj.bitIdx) || decide (s.device.bitCount = s.cfg.injectStartBit))

/-- The level Inject drives: bit `bitIdx` of key `keyIdx` in BitOrder, inverted when OutputInvert = 1
(R150, R153). -/
def State.driveLevel (s : State) : Bit :=
  (keyBit s.cfg.bitOrder (s.inj.job.getD s.inj.keyIdx 0#8) s.inj.bitIdx) ^^ s.cfg.outputInvert

/-- The injector after a bit `v` is driven: within a key the bit index moves on; the eighth bit closes
the window for this frame and moves to the next key; the last key's eighth bit ends the job (R149,
R150, R151). -/
def Injector.afterBit (j : Injector) (v : Bit) : Injector :=
  if j.bitIdx + 1 = 8 then
    if j.keyIdx + 1 = j.job.length then
      { j with dout := some v, bitIdx := 0, writeReady := false, writePending := false,
               job := [], keyIdx := 0 }
    else
      { j with dout := some v, bitIdx := 0, writeReady := false, keyIdx := j.keyIdx + 1 }
  else
    { j with dout := some v, bitIdx := j.bitIdx + 1 }

/-- `Inject(sampled)` (R150): drive the next bit, or release DOUT. -/
def State.inject (s : State) (sampled : Bool) : State :=
  if s.injects sampled then { s with inj := s.inj.afterBit s.driveLevel }
  else { s with inj := { s.inj with dout := none } }

end Sys2Proof.Machine
end

