-- ==== Sys2Proof/Machine/Capture.lean ====
section
/-! DEFINITION. The edge sampler and the framer: EDGE, SAMPLE and Append (rules R90 to R101). -/

namespace Sys2Proof.Machine

/-- `Classify(S, l, t)` (R91): the direction a new edge belongs to. -/
def State.classify (s : State) (l : Bit) (t : Nat) : Dir :=
  if s.edge.dir = .device then .device
  else if !l && elapsedOver s.edge.tLastRise t s.cfg.longHighThreshold then .device
  else .panel

/-- An edge of level `l` is sampled (R93). -/
def Config.samples (c : Config) (l : Bit) : Bool :=
  if l then c.sampleOnRising else c.sampleOnFalling

/-- Record the edge: its level and its times (R92). -/
def State.recordEdge (s : State) (l : Bit) (t : Nat) : State :=
  { s with edge := { s.edge with
      clk := some l
      tLastEdge := some t
      tLastEvent := some t
      tLastRise := if l then some t else s.edge.tLastRise } }

/-- On the switch from Panel to Device, move the direction and open the injection window (R92, R149). -/
def State.openWindow (s : State) (d : Dir) : State :=
  if d = .device ∧ s.edge.dir = .panel then
    { s with edge := { s.edge with dir := .device }
             inj := { s.inj with writeReady := true } }
  else s

/-- Arm the sample of an edge at `t`, for the direction the edge was classified into (R92, R94). -/
def State.armSample (s : State) (sampled : Bool) (t : Nat) : State :=
  if sampled then
    { s with samp := { pending := true, due := t + s.cfg.sampleOffset, dir := s.edge.dir } }
  else s

/-- An EDGE that is neither ignored nor a model fault (R92): classify on the state before the edge,
record, switch the window, inject, arm. -/
def State.takeEdge (s : State) (l : Bit) (t : Nat) : State :=
  let d := s.classify l t
  let sampled := Config.samples s.cfg l
  (((s.recordEdge l t).openWindow d).inject sampled).armSample sampled t

/-- EDGE (R92): a transition of the clock line to level `l` at time `t`. The three model faults are
checked in the order of R172. -/
def execEdge (l : Bit) (t : Nat) (s : State) : Out :=
  s.whenEnabled
    (if !s.ctl.bound then .next s
     else if s.sampleDueBy t then .fault .sampleFirst
     else if laterThan s.edge.tLastEvent t then s.raise .timeReversal
     else if s.samp.pending && decide (t < s.samp.due) then s.raise .sampleOverrun
     else if s.edge.clk = some l then s.raise .notATransition
     else .next (s.takeEdge l t))

/-- The framer with one more bit counted, up to BitCountMax (R97, R100). -/
def Framer.count (f : Framer) : Framer :=
  { f with bitCount := if f.bitCount < Config.bitCountMax then f.bitCount + 1 else f.bitCount }

/-- The framer with bit `b` placed in the byte in progress (R98) and the byte completed when it was
its last bit (R99). A byte starts from 0x00. -/
def Framer.place (f : Framer) (order : BitOrder) (b : Bit) : Framer :=
  let i := f.byteCount
  let p := f.bitInByte
  let x : Byte := if p = 0 then 0#8 else f.buf.getD i 0#8
  let f' := { f with buf := f.buf.set i (placeBit order x p b) }
  if p + 1 = byteWidth i then { f' with byteCount := i + 1, bitInByte := 0 }
  else { f' with bitInByte := p + 1 }

/-- A bit arrives for a frame buffer whose M bytes are complete, for the first time in its frame: the
cause of DataOverflow (R97, R166). -/
def Framer.overflows (f : Framer) (c : Config) : Bool :=
  !f.trunc && decide (f.byteCount = c.maxFrameBytes)

/-- The framer after one more bit (R97 to R99): counted, and then placed or discarded. -/
def Framer.append (f : Framer) (c : Config) (b : Bit) : Framer :=
  if f.trunc then f.count
  else if f.byteCount = c.maxFrameBytes then { f.count with trunc := true }
  else f.count.place c.bitOrder b

/-- `Append(d, b)` (R97 to R99). -/
def State.append (s : State) (d : Dir) (b : Bit) : State :=
  let f := s.framer d
  let s' := s.setFramer d (f.append s.cfg b)
  if f.overflows s.cfg then s'.record .dataOverflow else s'

/-- A SAMPLE with a sample pending (R95): disarm, stamp its due time, append to the latched direction. -/
def State.takeSample (s : State) (b : Bit) : State :=
  (({ s with samp := { s.samp with pending := false } } : State).stampEvent s.samp.due).append
    s.samp.dir b

/-- SAMPLE (R95): the phase sampler reads level `b` of the data line. -/
def execSample (b : Bit) (s : State) : Out :=
  s.whenEnabled (if s.samp.pending then .next (s.takeSample b) else .fault .noSamplePending)

end Sys2Proof.Machine
end

