-- ==== Sys2Proof/Machine/Control.lean ====
section
/-! DEFINITION. Initialization: INIT (rules R160 to R162). -/

namespace Sys2Proof.Machine

/-- The state after `INIT w` (R35, "After INIT" column): every field as at power-up but `bound` and
`writeEnabled`; the fault register is unchanged, and so are the model's own fields. -/
def State.afterInit (s : State) (w : Bit) : State :=
  { State.resetWith s.cfg with
    ctl := { bound := true, writeEnabled := w }
    fault := s.fault
    result := s.result
    input := s.input }

/-- INIT (R160). -/
def execInit (w : Bit) (s : State) : Out := s.whenEnabled (.next (s.afterInit w))

end Sys2Proof.Machine
end

