-- ==== Sys2Proof/Machine/Validator.lean ====
section
/-! DEFINITION. The integrity validator (rules R135 to R142): pure functions of a configuration and a
slot. -/

namespace Sys2Proof.Machine

/-- `Sum8` (R136): the sum of the bytes as unsigned naturals, modulo 256. -/
def sum8 (xs : List Byte) : Byte := BitVec.ofNat 8 (xs.map BitVec.toNat).sum

/-- The function a configuration's ChecksumFn names (R136). -/
def checksum (c : Config) (xs : List Byte) : Byte :=
  match c.checksumFn with
  | .sum8 => sum8 xs
  | .given id => Config.givenChecksum id xs

/-- Byte `i` of a slot. -/
def Slot.byteAt (x : Slot) (i : Nat) : Byte := x.bytes.getD i 0#8

/-- The checksum span (R135, R137): the complete bytes before the last, byte 1 left out when
ChecksumSkipStop = 1. -/
def checksumSpan (c : Config) (x : Slot) : List Byte :=
  ((List.range (x.byteCount - 1)).filter fun i => !(c.checksumSkipStop && i == 1)).map x.byteAt

/-- A truncated frame's slot: bitCount above `8·M − 7` (R76, R138). -/
def Slot.truncated (c : Config) (x : Slot) : Bool := decide (maxStoredBits c < x.bitCount)

/-- `Validate(s)` (R135). -/
def validate (c : Config) (x : Slot) : Bit :=
  if x.truncated c then false
  else if x.byteCount < c.minValidBytes then false
  else checksum c (checksumSpan c x) == x.byteAt (x.byteCount - 1)

/-- `DeviceValid(s)` (R139). -/
def deviceValid (c : Config) (x : Slot) : Bit :=
  if x.truncated c then false
  else if x.byteCount < 1 then false
  else if c.deviceChecksum then validate c x
  else true

/-- How a reader of a slot tells the frames apart (R76). -/
inductive FrameKind where
  /-- bitCount = stored(byteCount). -/
  | complete
  /-- bitCount = stored(byteCount) + p with 0 < p < 8. -/
  | trailing (p : Nat)
  /-- bitCount > 8·M − 7. -/
  | truncated
deriving DecidableEq, Repr

/-- The kind of a slot's frame (R76); `none` for a slot no hand-off makes. -/
def Slot.kind (c : Config) (x : Slot) : Option FrameKind :=
  if x.truncated c then some .truncated
  else if x.bitCount = stored x.byteCount then some .complete
  else if stored x.byteCount < x.bitCount ∧ x.bitCount < stored x.byteCount + 8 then
    some (.trailing (x.bitCount - stored x.byteCount))
  else none

end Sys2Proof.Machine
end

