-- ==== Sys2Proof/Machine/Queue.lean ====
section
/-! DEFINITION. The consumer's operations on the frame storage: POP_PANEL, POP_DEVICE, CLR_DOVF and
CLR_BOVF (rules R120 to R130). -/

namespace Sys2Proof.Machine

/-- A poll's result for a slot's verdict (R121, R123). -/
def verdict (v : Bit) : Result := if v then .accept else .reject

/-- The state with the oldest queued slot taken and validated into PanelOut (R121). -/
def State.takePanel (s : State) : State :=
  let x := s.memRead .fifo s.queue.head
  let s' := s.memWrite .fifo s.queue.head (Slot.empty s.cfg)
  { s' with
    queue := { s'.queue with head := (s.queue.head + 1) % s.cfg.queueCapacity
                             count := s.queue.count - 1 }
    out := { s'.out with panelOut := x, panelOutValid := validate s.cfg x } }

/-- POP_PANEL (R121). An empty queue gives NONE and takes nothing from the live capture (R125). -/
def execPopPanel (s : State) : Out :=
  s.whenEnabled
    (if !s.ctl.bound || decide (s.queue.count = 0) then s.answer .none
     else s.takePanel.answer (verdict (validate s.cfg (s.memRead .fifo s.queue.head))))

/-- The state with the latched device frame taken and validated into DeviceOut (R123). -/
def State.takeDevice (s : State) : State :=
  let x := s.memRead .devLatch 0
  let s' := s.memWrite .devLatch 0 (Slot.empty s.cfg)
  { s' with
    latch := { s'.latch with full := false }
    out := { s'.out with deviceOut := x, deviceOutValid := deviceValid s.cfg x } }

/-- POP_DEVICE (R123). -/
def execPopDevice (s : State) : Out :=
  s.whenEnabled
    (if !s.ctl.bound || !s.latch.full then s.answer .none
     else s.takeDevice.answer (verdict (deviceValid s.cfg (s.memRead .devLatch 0))))

/-- CLR_DOVF (R127). -/
def execClrDovf (s : State) : Out := s.whenEnabled (.next s.clearDataOverflow)

/-- CLR_BOVF (R128). -/
def execClrBovf (s : State) : Out := s.whenEnabled (.next s.clearBufferOverflow)

end Sys2Proof.Machine
end

