-- ==== Sys2Proof/Machine/Dispatch.lean ====
section
/-! DEFINITION. One arm for each operation of the block (rule R77). -/

namespace Sys2Proof.Machine

def exec (i : Instr) (s : State) : Host.Outcome State Fault Refusal :=
  match i with
  | .init w => Sys2Proof.Machine.execInit w s
  | .edge l t => Sys2Proof.Machine.execEdge l t s
  | .sample b => Sys2Proof.Machine.execSample b s
  | .tick t => Sys2Proof.Machine.execTick t s
  | .popPanel => Sys2Proof.Machine.execPopPanel s
  | .popDevice => Sys2Proof.Machine.execPopDevice s
  | .clrDovf => Sys2Proof.Machine.execClrDovf s
  | .clrBovf => Sys2Proof.Machine.execClrBovf s
  | .stageKey k => Sys2Proof.Machine.execStageKey k s
  | .stageSeq ks => Sys2Proof.Machine.execStageSeq ks s

end Sys2Proof.Machine
end

