-- ==== Sys2Proof/Machine/Fetch.lean ====
section
/-! DEFINITION. Taking the next operation from the ones given to the block (rules R21, R57, R170). -/

namespace Sys2Proof.Machine

/-- What a step answers where the items given are not an operation: with no item the block waits, and
any other sequence is refused by name (R80, R168), after a model fault too (DESIGN CHOICE, assumption
15). -/
def decodeStop : DecodeError → Out
  | .noOperation => .fault .noOperation
  | .reservedOperation w => .refused (.reservedOperation w)
  | .notAnOperationWord => .refused .notAnOperationWord
  | .missingOperand w => .refused (.missingOperand w)

/-- The next operation, with the state from which it has been taken; or why there is none. An
ill-formed configuration gives no operation a meaning, whatever its word (R8, R168). The items are
decoded before the fault register is looked at, which the spec leaves open (R33, R80): after a model
fault, items that are no operation still stop as `decodeStop` says, and an operation as `modelFaulted`
(DESIGN CHOICE, assumption 15; safe: no order gives a next state). -/
def State.fetch (s : State) : Except Out (Instr × State) :=
  if s.cfg.wf = false then .error (.refused .illFormedConfiguration)
  else
    match decode s.input with
    | .ok r => .ok (r.1, { s with input := r.2 })
    | .error e => .error (decodeStop e)

/-- Give the operation whose bits are `w`, numbered as `spec/opcode_table.json` numbers them, as the
next one. -/
def State.giveWord (s : State) (nbits w : Nat) : State :=
  { s with input := wordItems nbits w ++ s.input }

end Sys2Proof.Machine
end

