-- ==== Sys2Proof/Machine/Step.lean ====
section
/-! DEFINITION. One step of the block: the next of the operations given to it, as one atomic step
(rules R11, R57, R170). -/

namespace Sys2Proof.Machine

/-- Take the next operation and run it. The order of the operations is the order of the run (R21,
R170), so every interleaving of the four agents is some `input`. Where there is no step, the operation
is not taken. -/
def step (s : State) : Host.Outcome State Fault Refusal :=
  match s.fetch with
  | .ok r => exec r.1 r.2
  | .error stop => stop

/-- `s` with the operation whose bits are `w` stored where `step` takes its next operation from: in
front of the operations given and not yet taken. -/
def State.withFetchWord (s : State) (nbits w : Nat) : State := s.giveWord nbits w

end Sys2Proof.Machine
end

