-- ==== Sys2Proof/Machine/Outputs.lean ====
section
/-! DEFINITION. The status outputs: the state the consumer can read (rules R39, R54, R59, R122). -/

namespace Sys2Proof.Machine

/-- The readable state (R39). -/
structure Readable where
  panelOut : Slot
  panelOutValid : Bit
  deviceOut : Slot
  deviceOutValid : Bit
  dataOverflow : Bit
  bufferOverflow : Bit
  /-- The number of queued panel frames. -/
  count : Nat
  devFull : Bit
  writePending : Bit
  dout : Option Bit
deriving DecidableEq, Repr

/-- Read every status output. A read is a function of the state and changes nothing (R54). -/
def State.readable (s : State) : Readable where
  panelOut := s.out.panelOut
  panelOutValid := s.out.panelOutValid
  deviceOut := s.out.deviceOut
  deviceOutValid := s.out.deviceOutValid
  dataOverflow := s.flags.dataOverflow
  bufferOverflow := s.flags.bufferOverflow
  count := s.queue.count
  devFull := s.latch.full
  writePending := s.inj.writePending
  dout := s.inj.dout

/-- The panel frame offered to the decoder: PanelOut when it passed validation (R59, R122). -/
def State.offeredPanel (s : State) : Option Slot :=
  if s.out.panelOutValid then some s.out.panelOut else none

/-- The device frame offered to the decoder (R124). -/
def State.offeredDevice (s : State) : Option Slot :=
  if s.out.deviceOutValid then some s.out.deviceOut else none

end Sys2Proof.Machine
end

