-- ==== Sys2Proof/Machine/Trace.lean ====
section
/-! DEFINITION. The trace assembler: CLOCKBITS, FRAMEBITS and the text of a trace line (rules R82 to
R84). Text is a list of characters. -/

namespace Sys2Proof.Machine

/-! ### The two pseudo-operations -/

/-- The bits of an 8-bit byte in BitOrder (R84). -/
def byteBits (order : BitOrder) (b : Byte) : List Bit := (List.range 8).map (keyBit order b)

/-- The bits of the bytes of a frame from byte `i` on: one bit for byte 1, eight for every other byte
(R84). -/
def frameBitsFrom (order : BitOrder) : Nat → List Byte → List Bit
  | _, [] => []
  | i, b :: bs =>
    (if i = 1 then [b.getLsbD 0] else byteBits order b) ++ frameBitsFrom order (i + 1) bs

/-- `FRAMEBITS(B_0, ..., B_(m-1))` (R84); refused when there is a byte 1 and it is above 1. -/
def frameBits (c : Config) (bytes : List Byte) : Except Refusal (List Bit) :=
  if bytes.getD 1 0#8 ≤ 1#8 then .ok (frameBitsFrom c.bitOrder 0 bytes)
  else .error .badPseudoOperation

/-- The EDGE and SAMPLE of each bit of a CLOCKBITS, the first edge of level `l` at time `t` (R83). -/
def clockBitsFrom (l : Bit) (t dt : Nat) : List Bit → List Instr
  | [] => []
  | b :: bs => .edge l t :: .sample b :: clockBitsFrom (!l) (t + dt) dt bs

/-- `CLOCKBITS l0, t0, dt, bits` (R83); refused unless every edge takes a sample and So < dt. -/
def clockBits (c : Config) (l0 : Bit) (t0 dt : Nat) (bits : List Bit) :
    Except Refusal (List Instr) :=
  if c.sampleOnRising && c.sampleOnFalling && decide (c.sampleOffset < dt) then
    .ok (clockBitsFrom l0 t0 dt bits)
  else .error .badPseudoOperation

/-! ### Tokens of a trace line -/

/-- The tokens of a trace line. -/
inductive Token where
  | word (name : List Char)
  | num (n : Nat)
  | comma
  | lbracket
  | rbracket
  | lparen
  | rparen
  | append
deriving DecidableEq, Repr

/-- The value of a digit in a base up to 16. -/
def digitValue (base : Nat) (ch : Char) : Option Nat :=
  let n := ch.toNat
  let v : Option Nat :=
    if 48 ≤ n ∧ n ≤ 57 then some (n - 48)
    else if 65 ≤ n ∧ n ≤ 70 then some (n - 55)
    else if 97 ≤ n ∧ n ≤ 102 then some (n - 87)
    else none
  v.filter fun d => decide (d < base)

/-- The number that digits in a base write, most significant first, after a value already read. -/
def digitsValue (base : Nat) : Nat → List Char → Option Nat
  | acc, [] => some acc
  | acc, ch :: cs => (digitValue base ch).bind fun d => digitsValue base (acc * base + d) cs

/-- The token of a run of letters, digits and underscores: "Numbers are decimal, or hexadecimal with a
`0x` prefix" (R82). -/
def wordToken (cs : List Char) : Option Token :=
  match cs with
  | '0' :: 'x' :: d :: ds => (digitsValue 16 0 (d :: ds)).map Token.num
  | d :: ds =>
    if (digitValue 10 d).isSome then (digitsValue 10 0 (d :: ds)).map Token.num
    else some (.word (d :: ds))
  | [] => none

/-- A letter, a digit or an underscore. -/
def isWordChar (ch : Char) : Bool :=
  let n := ch.toNat
  decide (48 ≤ n ∧ n ≤ 57) || decide (65 ≤ n ∧ n ≤ 90) || decide (97 ≤ n ∧ n ≤ 122) ||
    decide (n = 95)

/-- The tokens of a character that ends a run: punctuation or white space; `none` for another one. -/
def markTokens (ch : Char) : Option (List Token) :=
  if ch = ',' then some [.comma]
  else if ch = '[' then some [.lbracket]
  else if ch = ']' then some [.rbracket]
  else if ch = '(' then some [.lparen]
  else if ch = ')' then some [.rparen]
  else if ch = ' ' ∨ ch = '\t' then some []
  else none

/-- Close the run `acc` (kept in reverse). -/
def closeRun (acc : List Char) : Option (List Token) :=
  if acc = [] then some [] else (wordToken acc.reverse).map fun k => [k]

/-- The tokens of a line. `acc` is the run in progress, in reverse, and `plus` says that the last
character was the first `+` of a `++`. "`;` starts a comment that runs to the end of the line" (R82). -/
def tokensFrom : List Char → Bool → List Char → Option (List Token)
  | acc, plus, [] => if plus then none else closeRun acc
  | acc, plus, ch :: cs =>
    if plus then
      if ch = '+' then (tokensFrom [] false cs).map fun r => Token.append :: r else none
    else if ch = ';' then closeRun acc
    else if isWordChar ch then tokensFrom (ch :: acc) false cs
    else if ch = '+' then
      (closeRun acc).bind fun k => (tokensFrom [] true cs).map fun r => k ++ r
    else
      (closeRun acc).bind fun k =>
        (markTokens ch).bind fun m => (tokensFrom [] false cs).map fun r => k ++ m ++ r

/-! ### Operands -/

/-- The numbers of a list up to its closing token, and the tokens after it. `first` says that no number
has been read, so the list may close at once. -/
def numbersTo (close : Token) : Bool → List Token → Option (List Nat × List Token)
  | _, .num n :: .comma :: ts =>
    (numbersTo close false ts).map fun r => (n :: r.1, r.2)
  | _, .num n :: k :: ts => if k = close then some ([n], ts) else none
  | first, k :: ts => if first && k == close then some ([], ts) else none
  | _, [] => none

/-- A number as a Bit. -/
def numBit (n : Nat) : Option Bit :=
  if n = 0 then some false else if n = 1 then some true else none

/-- A number as a Byte. -/
def numByte (n : Nat) : Option Byte := if n < 256 then some (BitVec.ofNat 8 n) else none

/-- Every number of a list as a value of one type, or `none`. -/
def allNums {α : Type} (f : Nat → Option α) : List Nat → Option (List α)
  | [] => some []
  | n :: ns => (f n).bind fun x => (allNums f ns).map fun xs => x :: xs

/-- `none` as a line that does not have the form of R82. -/
def orBadLine {α : Type} : Option α → Except Refusal α
  | some x => .ok x
  | none => .error .badTraceLine

/-- The name FRAMEBITS. -/
def frameBitsName : List Char := ['F', 'R', 'A', 'M', 'E', 'B', 'I', 'T', 'S']

/-- One part of a bit list, `[b, ...]` or `FRAMEBITS(B, ...)`, and the tokens after it (R83, R84). -/
def bitListPart (c : Config) : List Token → Except Refusal (List Bit × List Token)
  | .lbracket :: ts => do
    let r ← orBadLine (numbersTo .rbracket true ts)
    let bs ← orBadLine (allNums numBit r.1)
    pure (bs, r.2)
  | .word w :: .lparen :: ts =>
    if w = frameBitsName then do
      let r ← orBadLine (numbersTo .rparen true ts)
      let bytes ← orBadLine (allNums numByte r.1)
      let bs ← frameBits c bytes
      pure (bs, r.2)
    else .error .badTraceLine
  | _ => .error .badTraceLine

/-- A bit list: parts joined by `++`, up to the end of the line (R84). `fuel` bounds the parts. -/
def bitList (c : Config) : Nat → List Token → Except Refusal (List Bit)
  | 0, _ => .error .badTraceLine
  | fuel + 1, ts => do
    let r ← bitListPart c ts
    match r.2 with
    | [] => pure r.1
    | .append :: rest => do
      let more ← bitList c fuel rest
      pure (r.1 ++ more)
    | _ => .error .badTraceLine

/-! ### Lines -/

/-- A line of a mnemonic and numbers (R82). -/
def plainLine (name : List Char) (ts : List Token) : Option Instr :=
  match name, ts with
  | ['I', 'N', 'I', 'T'], [.num w] => (numBit w).map Instr.init
  | ['E', 'D', 'G', 'E'], [.num l, .comma, .num t] => (numBit l).map fun b => Instr.edge b t
  | ['S', 'A', 'M', 'P', 'L', 'E'], [.num d] => (numBit d).map Instr.sample
  | ['T', 'I', 'C', 'K'], [.num t] => some (.tick t)
  | ['P', 'O', 'P', '_', 'P', 'A', 'N', 'E', 'L'], [] => some .popPanel
  | ['P', 'O', 'P', '_', 'D', 'E', 'V', 'I', 'C', 'E'], [] => some .popDevice
  | ['C', 'L', 'R', '_', 'D', 'O', 'V', 'F'], [] => some .clrDovf
  | ['C', 'L', 'R', '_', 'B', 'O', 'V', 'F'], [] => some .clrBovf
  | ['S', 'T', 'A', 'G', 'E', '_', 'K', 'E', 'Y'], [.num k] => (numByte k).map Instr.stageKey
  | ['S', 'T', 'A', 'G', 'E', '_', 'S', 'E', 'Q'], .lbracket :: rest =>
    match numbersTo .rbracket true rest with
    | some (ns, []) =>
      (allNums numByte ns).bind fun ks => if ks.length ≤ 255 then some (.stageSeq ks) else none
    | _ => none
  | _, _ => none

/-- The name CLOCKBITS. -/
def clockBitsName : List Char := ['C', 'L', 'O', 'C', 'K', 'B', 'I', 'T', 'S']

/-- The operations of a CLOCKBITS line's operands (R83). -/
def clockBitsLine (c : Config) : List Token → Except Refusal (List Instr)
  | .num l0 :: .comma :: .num t0 :: .comma :: .num dt :: .comma :: ts => do
    let l ← orBadLine (numBit l0)
    let bits ← bitList c ts.length ts
    clockBits c l t0 dt bits
  | _ => .error .badTraceLine

/-- The operations one trace line stands for (R82, R83); a blank line or a comment stands for none. -/
def assembleLine (c : Config) (line : List Char) : Except Refusal (List Instr) :=
  match tokensFrom [] false line with
  | none => .error .badTraceLine
  | some [] => .ok []
  | some (.word name :: ts) =>
    if name = clockBitsName then clockBitsLine c ts
    else (orBadLine (plainLine name ts)).map fun i => [i]
  | some _ => .error .badTraceLine

/-- The operations of a trace, one line after another (R82). -/
def assemble (c : Config) : List (List Char) → Except Refusal (List Instr)
  | [] => .ok []
  | line :: rest => do
    let now ← assembleLine c line
    let later ← assemble c rest
    pure (now ++ later)

/-- The state with more operations given to the block, after the ones it has not yet taken. -/
def State.give (s : State) (ops : List Instr) : State := { s with input := s.input ++ encodeAll ops }

end Sys2Proof.Machine
end

