-- ==== Sys2Proof/Safety.lean ====
section
/-! DEFINITION. What counts as a run and as a safe run, in the terms the claims use: sequences of
operations, admitted runs (rule R170), the invariants of rule R36, and reachable states. -/

namespace Sys2Proof.Machine

/-- A state in which the gate of every operation is open: the configuration is well-formed (R8) and the
fault register is not set (R33). -/
def State.Live (s : State) : Prop := s.cfg.wf = true ∧ s.fault = none

/-- Run operations one after another, stopping where there is no step. -/
def runOps : List Instr → State → Out
  | [], s => .next s
  | i :: is, s =>
    match exec i s with
    | .next s' => runOps is s'
    | .fault r => .fault r
    | .refused r => .refused r

/-- A sequence of operations is a run that ends in `s'` with no model fault: "any claim about a run
takes 'fault = none' as a premise" (R167). -/
def AdmittedRun (ops : List Instr) (s s' : State) : Prop := runOps ops s = .next s' ∧ s'.fault = none

/-- The timestamp an operation carries, if it is an EDGE or a TICK (R170b). -/
def timestamp : Instr → Option Nat
  | .edge _ t => some t
  | .tick t => some t
  | .init _ => none
  | .sample _ => none
  | .popPanel => none
  | .popDevice => none
  | .clrDovf => none
  | .clrBovf => none
  | .stageKey _ => none
  | .stageSeq _ => none

/-- The operations of the foreground context that are not INIT (R176). -/
def isConsumerAccess : Instr → Bool
  | .init _ => false
  | .edge _ _ => false
  | .sample _ => false
  | .tick _ => false
  | .popPanel => true
  | .popDevice => true
  | .clrDovf => true
  | .clrBovf => true
  | .stageKey _ => true
  | .stageSeq _ => true

/-- INIT, the one operation that resets everything (R160). -/
def isInit : Instr → Bool
  | .init _ => true
  | .edge _ _ => false
  | .sample _ => false
  | .tick _ => false
  | .popPanel => false
  | .popDevice => false
  | .clrDovf => false
  | .clrBovf => false
  | .stageKey _ => false
  | .stageSeq _ => false

/-- The table of R35, but for `fault`, with the two fields in which its columns differ. -/
structure State.AtResetValues (s : State) (c : Config) (bound writeEnabled : Bit) : Prop where
  bound : s.ctl.bound = bound
  writeEnabled : s.ctl.writeEnabled = writeEnabled
  buf : ∀ d, (s.framer d).buf = List.replicate c.maxFrameBytes 0#8
  byteCount : ∀ d, (s.framer d).byteCount = 0
  bitInByte : ∀ d, (s.framer d).bitInByte = 0
  bitCount : ∀ d, (s.framer d).bitCount = 0
  trunc : ∀ d, (s.framer d).trunc = false
  clk : s.edge.clk = none
  tLastEdge : s.edge.tLastEdge = none
  tLastRise : s.edge.tLastRise = none
  tLastEvent : s.edge.tLastEvent = none
  dir : s.edge.dir = .panel
  sampPending : s.samp.pending = false
  sampDue : s.samp.due = 0
  sampDir : s.samp.dir = .panel
  dataOverflow : s.flags.dataOverflow = false
  bufferOverflow : s.flags.bufferOverflow = false
  fifo : s.queue.fifo = List.replicate c.queueCapacity ⟨List.replicate c.maxFrameBytes 0#8, 0, 0⟩
  head : s.queue.head = 0
  count : s.queue.count = 0
  devLatch : s.latch.slot = ⟨List.replicate c.maxFrameBytes 0#8, 0, 0⟩
  devFull : s.latch.full = false
  panelOut : s.out.panelOut = ⟨List.replicate c.maxFrameBytes 0#8, 0, 0⟩
  panelOutValid : s.out.panelOutValid = false
  deviceOut : s.out.deviceOut = ⟨List.replicate c.maxFrameBytes 0#8, 0, 0⟩
  deviceOutValid : s.out.deviceOutValid = false
  writePending : s.inj.writePending = false
  job : s.inj.job = []
  keyIdx : s.inj.keyIdx = 0
  bitIdx : s.inj.bitIdx = 0
  writeReady : s.inj.writeReady = false
  dout : s.inj.dout = none

/-- The first `n` ticks of the boundary timer, exactly periodic from `t0` (R110, R118). -/
def periodicTicks (c : Config) (t0 : Nat) (n : Nat) : List Instr :=
  (List.range n).map fun k => .tick (t0 + k * c.timerPeriod)

/-- The framer clauses of R36, with the ranges of R23. `discarded` is R36's number of bits discarded
in this frame, which no field holds. The last clause is R99's: a byte not yet written is 0x00. -/
structure Framer.Inv (f : Framer) (c : Config) : Prop where
  bufSize : f.buf.length = c.maxFrameBytes
  byteCountLe : f.byteCount ≤ c.maxFrameBytes
  bitInByteLe : f.bitInByte ≤ 7
  fullHasNoBits : f.byteCount = c.maxFrameBytes → f.bitInByte = 0
  stopByteHasNoBits : f.byteCount = 1 → f.bitInByte = 0
  truncIsFull : f.trunc = true → f.byteCount = c.maxFrameBytes
  bitCountCounts : ∃ discarded : Nat, (0 < discarded ↔ f.trunc = true) ∧
    f.bitCount = min Config.bitCountMax (stored f.byteCount + f.bitInByte + discarded)
  unwrittenZero : ∀ i, f.byteCount < i ∨ (i = f.byteCount ∧ f.bitInByte = 0) → f.buf.getD i 0#8 = 0#8

/-- The ranges of R27. -/
structure Slot.Inv (x : Slot) (c : Config) : Prop where
  size : x.bytes.length = c.maxFrameBytes
  byteCountLe : x.byteCount ≤ c.maxFrameBytes
  bitCountLe : x.bitCount ≤ Config.bitCountMax

/-- The FIFO clauses of R36, with R28's live range: entries outside it hold EmptySlot. -/
structure FrameQueue.Inv (q : FrameQueue) (c : Config) : Prop where
  size : q.fifo.length = c.queueCapacity
  headLt : q.head < c.queueCapacity
  countLe : q.count ≤ c.queueCapacity
  slots : ∀ x ∈ q.fifo, x.Inv c
  deadEmpty : ∀ i, q.count ≤ i → i < c.queueCapacity →
    q.fifo.getD ((q.head + i) % c.queueCapacity) (Slot.empty c) = Slot.empty c

/-- `s'` has the frame captured in `s` handed off (R112 to R114, R116, R117): capture is empty; a device
frame is in the latch, and a panel frame behind the queued ones, or dropped with BufferOverflow set when
the FIFO is full; and a direction with no bit has stored nothing. -/
def State.HandedOff (s s' : State) : Prop :=
  s'.panel = Framer.empty s.cfg ∧ s'.device = Framer.empty s.cfg ∧
  (0 < s.device.bitCount → s'.latch = { slot := s.device.slot, full := true }) ∧
  (s.device.bitCount = 0 → s'.latch = s.latch) ∧
  (0 < s.panel.bitCount → s.queue.Inv s.cfg → s.queue.count < s.cfg.queueCapacity →
    s'.queued = s.queued ++ [s.panel.slot] ∧ s'.flags = s.flags) ∧
  (0 < s.panel.bitCount → s.cfg.queueCapacity ≤ s.queue.count →
    s'.queue = s.queue ∧ s'.flags = { s.flags with bufferOverflow := true }) ∧
  (s.panel.bitCount = 0 → s'.queue = s.queue ∧ s'.flags = s.flags)

/-- The injector clauses of R36, with the ranges of R31. -/
structure Injector.Inv (j : Injector) (c : Config) : Prop where
  idle : j.writePending = false → j.job = [] ∧ j.keyIdx = 0 ∧ j.bitIdx = 0
  busy : j.writePending = true → 1 ≤ j.job.length ∧ j.job.length ≤ c.maxJobKeys ∧
    j.keyIdx < j.job.length
  bitIdxLe : j.bitIdx ≤ 7
  midKey : 0 < j.bitIdx → j.writePending = true ∧ j.writeReady = true

/-- The invariants of R36 and the ranges of R23 to R31, of a well-formed configuration (R8). `unbound`
is R32's "While it is 0, ... no SAMPLE is pending" and R161's flags that are still 0. The last two
clauses order the recorded times: the last edge is not after the latest timestamp, and that is not after
a pending sample's due time. -/
structure State.Inv (s : State) : Prop where
  cfgWf : s.cfg.wf = true
  panelInv : s.panel.Inv s.cfg
  deviceInv : s.device.Inv s.cfg
  queueInv : s.queue.Inv s.cfg
  latchInv : s.latch.slot.Inv s.cfg
  panelOutInv : s.out.panelOut.Inv s.cfg
  deviceOutInv : s.out.deviceOut.Inv s.cfg
  injInv : s.inj.Inv s.cfg
  bitInDevice : 0 < s.inj.bitIdx → s.edge.dir = .device
  readyInDevice : s.inj.writeReady = true → s.edge.dir = .device
  drivenEnabled : s.inj.dout ≠ none → s.ctl.writeEnabled = true
  pendingDue : s.samp.pending = true →
    ∃ t, s.edge.tLastEdge = some t ∧ s.samp.due = t + s.cfg.sampleOffset
  unbound : s.ctl.bound = false →
    s.samp.pending = false ∧ s.flags.dataOverflow = false ∧ s.flags.bufferOverflow = false
  edgeBeforeEvent : ∀ e, s.edge.tLastEdge = some e → ∃ u, s.edge.tLastEvent = some u ∧ e ≤ u
  eventBeforeDue : s.samp.pending = true → ∀ u, s.edge.tLastEvent = some u → u ≤ s.samp.due

/-- The states a run of configuration `c` reaches: power-up, any operations given, any step. -/
inductive Reachable (c : Config) : State → Prop where
  | powerUp : Reachable c (State.resetWith c)
  | given {s : State} (more : List Datum) :
      Reachable c s → Reachable c { s with input := s.input ++ more }
  | stepped {s s' : State} : Reachable c s → step s = .next s' → Reachable c s'

end Sys2Proof.Machine
end

