-- ==== Sys2Proof/Certificates/Slice0/Obligations.lean ====
section
/-! DEFINITION. The statements for the provers. Each docstring names the rules of the spec it states. -/

open Sys2Proof Sys2Proof.Machine

/-! ### Encoding -/

/-- Decoding the encoding of a well-formed operation gives that operation and exactly the items after
it, for every operation and every operand (R77, R78, R81). -/
def Obligations.DecodeOfEncodeIsTheOperation : Prop :=
  ∀ (i : Instr) (rest : List Datum), i.wf = true → decode (encode i ++ rest) = .ok (i, rest)

/-- A sequence of items that decodes is the encoding of the operation it decodes to, followed by the
items left over: no item has two readings (R77 to R81). -/
def Obligations.EncodeOfDecodeIsTheItems : Prop :=
  ∀ (ds rest : List Datum) (i : Instr), decode ds = .ok (i, rest) →
    i.wf = true ∧ encode i ++ rest = ds

/-- R80: the words of its list, and no others, are reserved; a reserved word is refused by name by the
decoder and by a step; and STAGE_SEQ with no key or with more than K keys decodes, and the operation
rejects it. That a step refuses the word by name in a state with the fault register set too, where R33
has no step, is the model's choice (assumption 15, DESIGN CHOICE). -/
def Obligations.ReservedWordsAreRefused : Prop :=
  (∀ (w : Byte) (ds : List Datum),
    let reserved := w ≤ 0x0F#8 ∨ (0x12#8 ≤ w ∧ w ≤ 0x1F#8) ∨ (0x22#8 ≤ w ∧ w ≤ 0x2F#8) ∨
      (0x32#8 ≤ w ∧ w ≤ 0x3F#8) ∨ (0x41#8 ≤ w ∧ w ≤ 0x4F#8) ∨ (0x52#8 ≤ w ∧ w ≤ 0x5F#8) ∨
      w = 0x60#8 ∨ (0x63#8 ≤ w ∧ w ≤ 0x6F#8) ∨ 0x72#8 ≤ w
    (decode (.byte w :: ds) = .error (.reservedOperation w) ↔ reserved) ∧
    ∀ s : State, s.cfg.wf = true → s.input = .byte w :: ds → reserved →
      step s = .refused (.reservedOperation w)) ∧
  ∀ (ks : List Byte) (s : State), ks.length ≤ 255 → s.Live →
    ks = [] ∨ s.cfg.maxJobKeys < ks.length →
    decode (encode (.stageSeq ks)) = .ok (.stageSeq ks, []) ∧
    exec (.stageSeq ks) s = .next { s with result := some .reject }

/-- Words written out bit by bit decode to the operations they stand for. The 8-bit words are the Word
column of R77. That a bare EDGE or TICK word reads with Time 0, and that bits 15..8 of 0xA570 are the key
of STAGE_KEY, is the model's choice of where an operand stands (assumption 9, DESIGN CHOICE), not R77's. -/
def Obligations.TableWordsDecodeToTheirOperations : Prop :=
  decodeTableWord 8 0b00010001 = some (.init true) ∧
  decodeTableWord 8 0b00100001 = some (.edge true 0) ∧
  decodeTableWord 8 0b00110000 = some (.sample false) ∧
  decodeTableWord 8 0b01000000 = some (.tick 0) ∧
  decodeTableWord 8 0b01010001 = some .popDevice ∧
  decodeTableWord 8 0b01100010 = some .clrBovf ∧
  decodeTableWord 16 0xA570 = some (.stageKey 0xA5#8)

/-- Where the decoder reads an operation from a word, giving that word makes the very next step run that
operation, and the operations given before it stay (R77, R78). How the block is given operations is the
model's choice (assumption 2). -/
def Obligations.TheNextStepRunsAGivenWord : Prop :=
  ∀ (s : State) (nbits w : Nat) (i : Instr), decodeTableWord nbits w = some i →
    step (s.withFetchWord nbits w) = exec i s

/-! ### Steps and runs -/

/-- A step takes the operation at the head of the ones given and is exec of it on the state without it;
with nothing given there is no step (R11, R21, R57). The field that holds the operations given, and the
fault that says there is no step, also where the fault register is set, are the model's choice
(assumptions 2, 4 and 15). -/
def Obligations.StepRunsTheDecodedOperation : Prop :=
  (∀ (s : State) (i : Instr) (rest : List Datum), decode s.input = .ok (i, rest) →
    step s = exec i { s with input := rest }) ∧
  ∀ s : State, s.cfg.wf = true → s.input = [] → step s = .fault .noOperation

/-- Giving the encodings of a sequence of well-formed operations and stepping once for each is the run
of that sequence (R77, R82, R170). The field that holds the operations given is the model's choice
(assumption 2). -/
def Obligations.SteppingAnEncodedTraceIsItsRun : Prop :=
  ∀ (ops : List Instr) (s : State) (rest : List Datum), (∀ i ∈ ops, i.wf = true) →
    Host.Core.run Sys2Proof.core ops.length { s with input := encodeAll ops ++ rest } =
      runOps ops { s with input := rest }

/-- R8: the constraints of a well-formed configuration; a configuration that breaks one is refused as a
whole, whatever the operation. -/
def Obligations.IllFormedConfigurationIsRefused : Prop :=
  (∀ c : Config, c.wf = true ↔
    (3 ≤ c.maxFrameBytes ∧ c.maxFrameBytes ≤ 8192) ∧ 1 ≤ c.queueCapacity ∧
    (0 < c.sampleOffset ∧ c.sampleOffset < c.idleThreshold) ∧
    c.longHighThreshold < c.idleThreshold ∧ 0 < c.timerPeriod ∧
    (c.sampleOnRising = true ∨ c.sampleOnFalling = true) ∧ 1 ≤ c.maxJobKeys ∧
    c.minValidBytes = 3) ∧
  ∀ (i : Instr) (s : State), s.cfg.wf = false →
    exec i s = .refused .illFormedConfiguration ∧ step s = .refused .illFormedConfiguration

/-- R33: the fault register is `none` at power-up until an operation raises a fault, which writes that
register and nothing else; once it is set, no operation, INIT included, has a step. "No step" is the
fault outcome (assumption 4). -/
def Obligations.FaultRegisterIsSticky : Prop :=
  (∀ c : Config, (State.resetWith c).fault = none) ∧
  (∀ (i : Instr) (s s' : State) (f : FaultCode), exec i s = .next s' → s'.fault = some f →
    s' = { s with fault := some f } ∧ ((∃ l t, i = .edge l t) ∨ ∃ t, i = .tick t)) ∧
  ∀ (i : Instr) (s : State), s.cfg.wf = true → s.fault ≠ none →
    exec i s = .fault .modelFaulted

/-- No operation reads or writes the operations not yet taken, so a run does not depend on what is given
after it (R57). The field is the model's own (assumption 2). -/
def Obligations.OperationsIgnoreTheInput : Prop :=
  ∀ (i : Instr) (s s' : State) (ds : List Datum), exec i s = .next s' →
    s'.input = s.input ∧ exec i { s with input := ds } = .next { s' with input := ds }

/-- No operation changes the configuration (R7, R52). -/
def Obligations.ConfigurationIsFixed : Prop :=
  ∀ (i : Instr) (s s' : State), exec i s = .next s' → s'.cfg = s.cfg

/-- R85: a poll that has a step returns one of the three results, a staging ACCEPT or REJECT, and every
other operation returns nothing. That "returns nothing" leaves the result of the last poll or staging
readable is the model's choice (assumption 3). -/
def Obligations.OnlyPollsAndStagingsReturn : Prop :=
  ∀ (i : Instr) (s s' : State), exec i s = .next s' →
    match i with
    | .popPanel => ∃ r, s'.result = some r
    | .popDevice => ∃ r, s'.result = some r
    | .stageKey _ => s'.result = some .accept ∨ s'.result = some .reject
    | .stageSeq _ => s'.result = some .accept ∨ s'.result = some .reject
    | .init _ => s'.result = s.result
    | .edge _ _ => s'.result = s.result
    | .sample _ => s'.result = s.result
    | .tick _ => s'.result = s.result
    | .clrDovf => s'.result = s.result
    | .clrBovf => s'.result = s.result

/-! ### Reset and INIT -/

/-- R35: the power-up column for every configuration, and the "After INIT" column after `INIT w` from
every state in which INIT has a step; INIT never changes `fault`. -/
def Obligations.ResetTable : Prop :=
  (∀ c : Config, (State.resetWith c).AtResetValues c false false ∧ (State.resetWith c).fault = none) ∧
  ∀ (w : Bit) (s : State), s.Live →
    ∃ s', exec (.init w) s = .next s' ∧ s'.AtResetValues s.cfg true w ∧ s'.fault = s.fault ∧
      s'.cfg = s.cfg

/-- R161: before INIT the edge and timer events are ignored, SAMPLE has no step, polls return NONE,
stagings REJECT, and the flag clears write 0 to flags that are already 0. The premises on the sample and
the flags are R32's and R161's own; "no step" is the fault outcome (assumption 4). -/
def Obligations.BeforeInitNothingIsCaptured : Prop :=
  ∀ s : State, s.Live → s.ctl.bound = false → s.samp.pending = false →
    s.flags = { dataOverflow := false, bufferOverflow := false } →
    (∀ l t, exec (.edge l t) s = .next s) ∧ (∀ t, exec (.tick t) s = .next s) ∧
    (∀ b, exec (.sample b) s = .fault .noSamplePending) ∧
    exec .popPanel s = .next { s with result := some .none } ∧
    exec .popDevice s = .next { s with result := some .none } ∧
    (∀ k, exec (.stageKey k) s = .next { s with result := some .reject }) ∧
    (∀ ks, exec (.stageSeq ks) s = .next { s with result := some .reject }) ∧
    exec .clrDovf s = .next s ∧ exec .clrBovf s = .next s

/-! ### EDGE -/

/-- R92, R93: an EDGE that is a transition, in time order, with no sample pending, records its level and
times; is Device when the direction already is, or when it falls more than Lh after the last rise
(R91); arms a sample So later for its direction exactly when it is a sampled edge (R93); and changes
nothing outside the edge detector, the phase sampler and the injector. -/
def Obligations.EdgeRecordsClassifiesAndArms : Prop :=
  ∀ (l : Bit) (t : Nat) (s : State), s.Live → s.ctl.bound = true → s.samp.pending = false →
    (∀ u, s.edge.tLastEvent = some u → u ≤ t) → s.edge.clk ≠ some l →
    ∃ s', exec (.edge l t) s = .next s' ∧
      s'.edge.clk = some l ∧ s'.edge.tLastEdge = some t ∧ s'.edge.tLastEvent = some t ∧
      s'.edge.tLastRise = (if l then some t else s.edge.tLastRise) ∧
      (s'.edge.dir = .device ↔ s.edge.dir = .device ∨
        (l = false ∧ ∃ r, s.edge.tLastRise = some r ∧ s.cfg.longHighThreshold < t - r)) ∧
      ((l = true ∧ s.cfg.sampleOnRising = true) ∨ (l = false ∧ s.cfg.sampleOnFalling = true) →
        s'.samp = { pending := true, due := t + s.cfg.sampleOffset, dir := s'.edge.dir }) ∧
      (¬((l = true ∧ s.cfg.sampleOnRising = true) ∨ (l = false ∧ s.cfg.sampleOnFalling = true)) →
        s'.samp = s.samp) ∧
      s' = { s with edge := s'.edge, samp := s'.samp, inj := s'.inj }

/-- R150: the EDGE of the last statement drives the next bit of the job's key, inverted when
OutputInvert = 1, exactly when it is a sampled Device edge with the window open, a job pending, writes
enabled and the key's slot reached; it moves to the next bit, key or job end; and otherwise it releases
DOUT. The window is open from the switch to Device on (R149). That a pending job has the key is R36's. -/
def Obligations.EdgeInjectsOrReleases : Prop :=
  ∀ (l : Bit) (t : Nat) (s : State), s.Live → s.ctl.bound = true → s.samp.pending = false →
    (∀ u, s.edge.tLastEvent = some u → u ≤ t) → s.edge.clk ≠ some l →
    (s.inj.writePending = true → s.inj.keyIdx < s.inj.job.length) →
    ∃ s', exec (.edge l t) s = .next s' ∧
      let sampled := (l = true ∧ s.cfg.sampleOnRising = true) ∨
        (l = false ∧ s.cfg.sampleOnFalling = true)
      let ready := s.inj.writeReady || (decide (s.edge.dir = .panel) && decide (s'.edge.dir = .device))
      let drives := sampled ∧ s'.edge.dir = .device ∧ ready = true ∧ s.inj.writePending = true ∧
        s.ctl.writeEnabled = true ∧
        (0 < s.inj.bitIdx ∨ s.device.bitCount = s.cfg.injectStartBit)
      let k := s.inj.job.getD s.inj.keyIdx 0#8
      let b := if s.cfg.bitOrder = .msbFirst then k.getLsbD (7 - s.inj.bitIdx)
        else k.getLsbD s.inj.bitIdx
      let v := some (b ^^ s.cfg.outputInvert)
      (¬drives → s'.inj = { s.inj with writeReady := ready, dout := none }) ∧
      (drives → s.inj.bitIdx + 1 ≠ 8 →
        s'.inj = { s.inj with writeReady := ready, dout := v, bitIdx := s.inj.bitIdx + 1 }) ∧
      (drives → s.inj.bitIdx + 1 = 8 → s.inj.keyIdx + 1 ≠ s.inj.job.length →
        s'.inj = { s.inj with
          writeReady := false, dout := v, bitIdx := 0, keyIdx := s.inj.keyIdx + 1 }) ∧
      (drives → s.inj.bitIdx + 1 = 8 → s.inj.keyIdx + 1 = s.inj.job.length →
        s'.inj =
          { writePending := false, job := [], keyIdx := 0, bitIdx := 0, writeReady := false,
            dout := v })

/-- R92, R167, R172: an EDGE that does not wait for a sample raises the first model fault that applies,
in the order TimeReversal, SampleOverrun, NotATransition, and the fault is all it writes; a TICK raises
TimeReversal on the same condition. -/
def Obligations.ModelFaultsAreRaisedInOrder : Prop :=
  ∀ (l : Bit) (t : Nat) (s : State), s.Live → s.ctl.bound = true →
    ¬(s.samp.pending = true ∧ s.samp.due ≤ t) →
    ((∃ u, s.edge.tLastEvent = some u ∧ t < u) →
      exec (.edge l t) s = .next { s with fault := some .timeReversal } ∧
      exec (.tick t) s = .next { s with fault := some .timeReversal }) ∧
    ((¬∃ u, s.edge.tLastEvent = some u ∧ t < u) → s.samp.pending = true →
      exec (.edge l t) s = .next { s with fault := some .sampleOverrun }) ∧
    ((¬∃ u, s.edge.tLastEvent = some u ∧ t < u) → s.samp.pending = false → s.edge.clk = some l →
      exec (.edge l t) s = .next { s with fault := some .notATransition })

/-- R96: while a sample is pending, SAMPLE has a step; an EDGE or TICK timed at or after its due time
has none; and every consumer operation, INIT included, has one. -/
def Obligations.SampleGoesBeforeLaterEvents : Prop :=
  ∀ s : State, s.Live → s.ctl.bound = true → s.samp.pending = true →
    (∀ b, ∃ s', exec (.sample b) s = .next s') ∧
    (∀ l t, s.samp.due ≤ t → exec (.edge l t) s = .fault .sampleFirst) ∧
    (∀ t, s.samp.due ≤ t → exec (.tick t) s = .fault .sampleFirst) ∧
    ∀ i, isConsumerAccess i = true ∨ isInit i = true → ∃ s', exec i s = .next s'

/-- R91: the direction goes from Panel to Device only by an EDGE, and back only by a frame boundary (a
TICK, with the device bits cleared) or INIT. -/
def Obligations.DirectionSwitchesOneWayWithinAFrame : Prop :=
  ∀ (i : Instr) (s s' : State), exec i s = .next s' →
    (s.edge.dir = .panel → s'.edge.dir = .device → ∃ l t, i = .edge l t ∧ l = false) ∧
    (s.edge.dir = .device → s'.edge.dir = .panel →
      (∃ t, i = .tick t ∧ s'.device.bitCount = 0 ∧ s'.panel.bitCount = 0) ∨ ∃ w, i = .init w)

/-- R154, R155: DOUT is driven after an EDGE only if that edge is classified Device, the window is open
(it opens at this very edge, or was open), a job is pending and writes are enabled; the level is that of
bit number `bitIdx` of the pending job's current key, in BitOrder. That a pending job has the key is R36's. -/
def Obligations.DataOutIsDrivenOnlyInTheDeviceWindow : Prop :=
  ∀ (l : Bit) (t : Nat) (s s' : State) (v : Bit), s.ctl.bound = true →
    (s.inj.writePending = true → s.inj.keyIdx < s.inj.job.length) →
    exec (.edge l t) s = .next s' → s'.fault = none → s'.inj.dout = some v →
    s'.edge.dir = .device ∧ (s.inj.writeReady = true ∨ s.edge.dir = .panel) ∧
    s.inj.writePending = true ∧ s.ctl.writeEnabled = true ∧
    v = ((s.inj.job.getD s.inj.keyIdx 0#8).getLsbD
      (if s.cfg.bitOrder = .msbFirst then 7 - s.inj.bitIdx else s.inj.bitIdx) ^^ s.cfg.outputInvert)

/-- R148, R150, R151: from the start of a key's slot, eight injections at sampled Device edges drive the
key's eight bits in BitOrder, most or least significant first; after the eighth the window is closed and
the next key, or the end of the job, is reached; and a ninth releases DOUT. -/
def Obligations.AKeyIsDrivenBitByBitInOrder : Prop :=
  ∀ s : State, s.edge.dir = .device → s.inj.writeReady = true → s.inj.writePending = true →
    s.inj.keyIdx < s.inj.job.length →
    s.ctl.writeEnabled = true → s.inj.bitIdx = 0 → s.device.bitCount = s.cfg.injectStartBit →
    let k := s.inj.job.getD s.inj.keyIdx 0#8
    let after (n : Nat) : State := (fun x : State => x.inject true)^[n] s
    (∀ n < 8, (after (n + 1)).inj.dout =
      some ((if s.cfg.bitOrder = .msbFirst then k.getLsbD (7 - n) else k.getLsbD n) ^^
        s.cfg.outputInvert)) ∧
    (after 8).inj.writeReady = false ∧ (after 8).inj.bitIdx = 0 ∧
    (s.inj.keyIdx + 1 ≠ s.inj.job.length → (after 8).inj.writePending = true ∧
      (after 8).inj.job = s.inj.job ∧ (after 8).inj.keyIdx = s.inj.keyIdx + 1) ∧
    (s.inj.keyIdx + 1 = s.inj.job.length → (after 8).inj.writePending = false ∧
      (after 8).inj.job = [] ∧ (after 8).inj.keyIdx = 0) ∧
    (after 9).inj.dout = none

/-! ### SAMPLE and the framer -/

/-- R97: every SAMPLE of a pending sample counts its bit up to BitCountMax; a bit of a truncated frame
is discarded; a bit for a full buffer truncates the frame and sets DataOverflow; no other bit does; and
a discarded bit writes no buffer byte and no other framer field. Whether its bit is placed or discarded,
the SAMPLE disarms the sample, takes its due time as the latest timestamp, and writes nothing else but
the framer of its direction and DataOverflow (R95). -/
def Obligations.SampleCountsAndFlagsOverflow : Prop :=
  ∀ (b : Bit) (s : State), s.Live → s.samp.pending = true →
    ∃ s', exec (.sample b) s = .next s' ∧
      let f := s.framer s.samp.dir
      let f' := s'.framer s.samp.dir
      f'.bitCount = (if f.bitCount < 65535 then f.bitCount + 1 else f.bitCount) ∧
      (f.trunc = true → f' = { f with bitCount := f'.bitCount } ∧ s'.flags = s.flags) ∧
      (f.trunc = false → f.byteCount = s.cfg.maxFrameBytes →
        f' = { f with bitCount := f'.bitCount, trunc := true } ∧
        s'.flags = { s.flags with dataOverflow := true }) ∧
      (f.trunc = false → f.byteCount ≠ s.cfg.maxFrameBytes →
        f'.trunc = false ∧ s'.flags = s.flags) ∧
      s' = { s with
        samp := { s.samp with pending := false }
        edge := { s.edge with tLastEvent := some s.samp.due }
        panel := if s.samp.dir = .panel then f' else s.panel
        device := if s.samp.dir = .device then f' else s.device
        flags := s'.flags }

/-- R95, R98, R99: a SAMPLE with room in the buffer puts its bit into the byte in progress of the
direction latched at its edge, from 0x00 and in BitOrder, and completes the byte with its last bit (byte
1 has one, every other byte eight); it counts the bit up to BitCountMax (R97) and leaves the frame
untruncated; it disarms the sample, takes its due time as the latest timestamp, and changes nothing
else. -/
def Obligations.SamplePlacesTheBit : Prop :=
  ∀ (b : Bit) (s : State), s.Live → s.samp.pending = true →
    (s.framer s.samp.dir).trunc = false →
    (s.framer s.samp.dir).byteCount < s.cfg.maxFrameBytes →
    ∃ s', exec (.sample b) s = .next s' ∧
      let f := s.framer s.samp.dir
      let f' := s'.framer s.samp.dir
      let x : Byte := if f.bitInByte = 0 then 0#8 else f.buf.getD f.byteCount 0#8
      let w := if f.byteCount = 1 then 1 else 8
      f'.buf = f.buf.set f.byteCount
        (if s.cfg.bitOrder = .msbFirst then (x <<< 1) ||| (if b then 1#8 else 0#8)
          else x ||| ((if b then 1#8 else 0#8) <<< f.bitInByte)) ∧
      (f.bitInByte + 1 = w → f'.byteCount = f.byteCount + 1 ∧ f'.bitInByte = 0) ∧
      (f.bitInByte + 1 ≠ w → f'.byteCount = f.byteCount ∧ f'.bitInByte = f.bitInByte + 1) ∧
      f'.bitCount = (if f.bitCount < 65535 then f.bitCount + 1 else f.bitCount) ∧
      f'.trunc = false ∧
      s' = { s with
        samp := { s.samp with pending := false }
        edge := { s.edge with tLastEvent := some s.samp.due }
        panel := if s.samp.dir = .panel then f' else s.panel
        device := if s.samp.dir = .device then f' else s.device }

/-- R95: a SAMPLE with no sample pending has no step. -/
def Obligations.SampleNeedsAPendingSample : Prop :=
  ∀ (b : Bit) (s : State), s.Live → s.samp.pending = false →
    exec (.sample b) s = .fault .noSamplePending

/-- R71, R72, R84: the bits of any frame that fits the buffer, appended one by one to an empty framer,
assemble to exactly its bytes, in either bit order: byte 1 from one bit, every other byte from eight, the
unwritten bytes 0x00, and stored(n) bits counted. -/
def Obligations.FrameBitsAssembleToTheirBytes : Prop :=
  ∀ (c : Config) (bytes : List Byte) (bits : List Bit), c.wf = true →
    bytes.length ≤ c.maxFrameBytes → frameBits c bytes = .ok bits →
    bits.foldl (fun f b => f.append c b) (Framer.empty c) =
      { buf := bytes ++ List.replicate (c.maxFrameBytes - bytes.length) 0#8
        byteCount := bytes.length
        bitInByte := 0
        bitCount := stored bytes.length
        trunc := false }

/-- R73, R97, R100: the bits that arrive for a full buffer truncate the frame, are counted up to
BitCountMax, and are discarded: no byte and no other framer field changes. -/
def Obligations.BitsPastAFullBufferAreOnlyCounted : Prop :=
  ∀ (c : Config) (f : Framer) (bits : List Bit), f.byteCount = c.maxFrameBytes →
    f.bitCount ≤ Config.bitCountMax → bits ≠ [] →
    bits.foldl (fun f b => f.append c b) f =
      { f with bitCount := min Config.bitCountMax (f.bitCount + bits.length), trunc := true }

/-- R76: the slot of a framer that keeps R36 tells a complete, a trailing-bits and a truncated frame
apart. -/
def Obligations.SlotMetadataTellsFramesApart : Prop :=
  ∀ (c : Config) (f : Framer), c.wf = true → f.Inv c →
    f.slot.kind c = some (if f.trunc then .truncated
      else if f.bitInByte = 0 then .complete else .trailing f.bitInByte)

/-! ### TICK and the hand-off -/

/-- R112 to R114, R116, R117: a TICK in time order, more than Ti after the last edge, with a bit captured
in some direction, hands off. A panel frame goes to the next free FIFO slot, or is dropped with
BufferOverflow set when count = Q; a device frame goes to the latch over what it holds; a direction with
no bit stores nothing; then capture is reset, a key cut off restarts (bitIdx = 0, keyIdx kept), and
nothing else changes. -/
def Obligations.TickHandsOff : Prop :=
  ∀ (t e : Nat) (s : State), s.Live → s.ctl.bound = true →
    ¬(s.samp.pending = true ∧ s.samp.due ≤ t) →
    (∀ u, s.edge.tLastEvent = some u → u ≤ t) →
    s.edge.tLastEdge = some e → s.cfg.idleThreshold < t - e →
    0 < s.panel.bitCount ∨ 0 < s.device.bitCount →
    let m := s.cfg.maxFrameBytes
    let q := s.cfg.queueCapacity
    let blank : Framer :=
      { buf := List.replicate m 0#8, byteCount := 0, bitInByte := 0, bitCount := 0, trunc := false }
    exec (.tick t) s = .next { s with
      queue := if 0 < s.panel.bitCount ∧ s.queue.count < q then
          { s.queue with
            fifo := s.queue.fifo.set ((s.queue.head + s.queue.count) % q)
              ⟨s.panel.buf, s.panel.byteCount, s.panel.bitCount⟩
            count := s.queue.count + 1 }
        else s.queue
      flags := if 0 < s.panel.bitCount ∧ ¬s.queue.count < q then
          { s.flags with bufferOverflow := true } else s.flags
      latch := if 0 < s.device.bitCount then
          { slot := ⟨s.device.buf, s.device.byteCount, s.device.bitCount⟩, full := true }
        else s.latch
      panel := blank
      device := blank
      edge := { s.edge with tLastEvent := some t, tLastRise := none, dir := .panel }
      inj := { s.inj with writeReady := false, bitIdx := 0, dout := none } }

/-- R111: a TICK in time order that finds no edge yet, or at most Ti since the last edge, or no bit
captured, writes only its time. -/
def Obligations.TickWithoutAHandOffStampsItsTime : Prop :=
  ∀ (t : Nat) (s : State), s.Live → s.ctl.bound = true →
    ¬(s.samp.pending = true ∧ s.samp.due ≤ t) →
    (∀ u, s.edge.tLastEvent = some u → u ≤ t) →
    (∀ e, s.edge.tLastEdge = some e → t - e ≤ s.cfg.idleThreshold) ∨
      (s.panel.bitCount = 0 ∧ s.device.bitCount = 0) →
    exec (.tick t) s = .next { s with edge := { s.edge with tLastEvent := some t } }

/-- R115: a TICK that runs while a sample is pending never hands off: it raises TimeReversal or writes
only its time, which is before the sample's due time. The premise on `sampDue` is R36's. -/
def Obligations.TickWithASamplePendingNeverHandsOff : Prop :=
  ∀ (t e : Nat) (s s' : State), s.ctl.bound = true → s.samp.pending = true →
    s.edge.tLastEdge = some e → s.samp.due = e + s.cfg.sampleOffset →
    exec (.tick t) s = .next s' →
    t < s.samp.due ∧ (s' = { s with fault := some .timeReversal } ∨
      s' = { s with edge := { s.edge with tLastEvent := some t } })

/-- R118: with exactly periodic ticks, no more edges and no sample pending, the frame is handed off by the
first tick later than e + Ti, which comes no later than e + Ti + Tp; every earlier tick leaves the capture
as it was. The next statement is the one for a pending sample. -/
def Obligations.PeriodicTicksEndTheFrameInTime : Prop :=
  ∀ (s : State) (e t0 : Nat), s.Live → s.ctl.bound = true → s.samp.pending = false →
    s.edge.tLastEdge = some e → 0 < s.panel.bitCount ∨ 0 < s.device.bitCount →
    (∀ u, s.edge.tLastEvent = some u → u ≤ t0) →
    t0 ≤ e + s.cfg.idleThreshold + s.cfg.timerPeriod →
    ∃ n, e + s.cfg.idleThreshold < t0 + n * s.cfg.timerPeriod ∧
      t0 + n * s.cfg.timerPeriod ≤ e + s.cfg.idleThreshold + s.cfg.timerPeriod ∧
      (∀ m ≤ n, ∃ s', AdmittedRun (periodicTicks s.cfg t0 m) s s' ∧
        s'.panel = s.panel ∧ s'.device = s.device ∧ s'.queue = s.queue ∧ s'.latch = s.latch) ∧
      ∃ s', AdmittedRun (periodicTicks s.cfg t0 (n + 1)) s s' ∧ s.HandedOff s'

/-- R118 for a last edge whose sample is still pending: the ticks before the due time leave the capture as
it was, SAMPLE runs before the first tick that is not (R96) and adds its bit, and from there the frame is
handed off by the first tick later than e + Ti, which comes no later than e + Ti + Tp. The premise on
`sampDue` is R36's. -/
def Obligations.PeriodicTicksEndAFrameWithASamplePending : Prop :=
  ∀ (s : State) (e t0 : Nat) (b : Bit), s.Live → s.ctl.bound = true → s.samp.pending = true →
    s.edge.tLastEdge = some e → s.samp.due = e + s.cfg.sampleOffset →
    (∀ u, s.edge.tLastEvent = some u → u ≤ t0) →
    t0 ≤ e + s.cfg.idleThreshold + s.cfg.timerPeriod →
    ∃ k n, (∀ j < k, t0 + j * s.cfg.timerPeriod < s.samp.due) ∧
      s.samp.due ≤ t0 + k * s.cfg.timerPeriod ∧
      e + s.cfg.idleThreshold < t0 + (k + n) * s.cfg.timerPeriod ∧
      t0 + (k + n) * s.cfg.timerPeriod ≤ e + s.cfg.idleThreshold + s.cfg.timerPeriod ∧
      ∃ s1, AdmittedRun (periodicTicks s.cfg t0 k ++ [.sample b]) s s1 ∧
        s1.panel = (s.append s.samp.dir b).panel ∧ s1.device = (s.append s.samp.dir b).device ∧
        s1.queue = s.queue ∧ s1.latch = s.latch ∧
        (∀ m ≤ n, ∃ s2,
          AdmittedRun (periodicTicks s.cfg (t0 + k * s.cfg.timerPeriod) m) s1 s2 ∧
          s2.panel = s1.panel ∧ s2.device = s1.device ∧ s2.queue = s1.queue ∧ s2.latch = s1.latch) ∧
        ∃ s2, AdmittedRun (periodicTicks s.cfg (t0 + k * s.cfg.timerPeriod) (n + 1)) s1 s2 ∧
          s1.HandedOff s2

/-! ### The queue and the polls -/

/-- R121: POP_PANEL returns NONE, and writes nothing else, when the block is not bound or the FIFO is
empty; otherwise it removes the slot at head, puts it in PanelOut with its verdict, and returns ACCEPT or
REJECT by the verdict; and changes nothing else. -/
def Obligations.PopPanelTakesTheSlotAtHead : Prop :=
  ∀ s : State, s.Live →
    (s.ctl.bound = false ∨ s.queue.count = 0 →
      exec .popPanel s = .next { s with result := some .none }) ∧
    (s.ctl.bound = true → 0 < s.queue.count →
      let x := s.memRead .fifo s.queue.head
      exec .popPanel s = .next { s with
        queue :=
          { fifo := s.queue.fifo.set s.queue.head ⟨List.replicate s.cfg.maxFrameBytes 0#8, 0, 0⟩
            head := (s.queue.head + 1) % s.cfg.queueCapacity
            count := s.queue.count - 1 }
        out := { s.out with panelOut := x, panelOutValid := validate s.cfg x }
        result := some (if validate s.cfg x then .accept else .reject) })

/-- R123: POP_DEVICE returns NONE, and writes nothing else, when the block is not bound or the latch is
not full; otherwise it empties the latch into DeviceOut with its verdict, and returns ACCEPT or REJECT by
the verdict; and changes nothing else. -/
def Obligations.PopDeviceTakesTheLatch : Prop :=
  ∀ s : State, s.Live →
    (s.ctl.bound = false ∨ s.latch.full = false →
      exec .popDevice s = .next { s with result := some .none }) ∧
    (s.ctl.bound = true → s.latch.full = true →
      let x := s.latch.slot
      exec .popDevice s = .next { s with
        latch := { slot := ⟨List.replicate s.cfg.maxFrameBytes 0#8, 0, 0⟩, full := false }
        out := { s.out with deviceOut := x, deviceOutValid := deviceValid s.cfg x }
        result := some (if deviceValid s.cfg x then .accept else .reject) })

/-- R58, R129: the queued frames change in three ways only: a TICK appends its panel frame behind them, a
POP_PANEL removes the oldest and delivers that one, INIT clears them. The premise is R36's FIFO clause. -/
def Obligations.FramesAreDeliveredInHandOffOrder : Prop :=
  ∀ (i : Instr) (s s' : State), s.queue.Inv s.cfg → exec i s = .next s' →
    s'.queued = s.queued ∨
    (∃ t, i = .tick t ∧ s.queued.length < s.cfg.queueCapacity ∧
      s'.queued = s.queued ++ [s.panel.slot]) ∨
    (i = .popPanel ∧ s.queued = s'.out.panelOut :: s'.queued) ∨
    ((∃ w, i = .init w) ∧ s'.queued = [])

/-- R130: appending any number of frames to an empty FIFO with no poll in between keeps exactly the first
Q of them, oldest first, and sets BufferOverflow exactly when there were more than Q. -/
def Obligations.QueueOverflowKeepsTheOldestFrames : Prop :=
  ∀ (s : State) (xs : List Slot), s.queue.Inv s.cfg → s.queue.count = 0 →
    s.flags.bufferOverflow = false →
    let s' := xs.foldl State.fifoAppend s
    s'.queued = xs.take s.cfg.queueCapacity ∧
    s'.queue.count = min s.cfg.queueCapacity xs.length ∧
    (s'.flags.bufferOverflow = true ↔ s.cfg.queueCapacity < xs.length)

/-- R51: reading a slot that has just been written gives what was written, and every other slot of every
space reads as before. That a slot past a space's end reads as EmptySlot is the model's choice
(assumption 10). -/
def Obligations.SlotReadAfterWrite : Prop :=
  (∀ (s : State) (i : Nat) (x : Slot), i < s.queue.fifo.length →
    (s.memWrite .fifo i x).memRead .fifo i = x) ∧
  (∀ (s : State) (x : Slot), (s.memWrite .devLatch 0 x).memRead .devLatch 0 = x) ∧
  (∀ (s : State) (i : Nat) (x : Slot), i < 2 → (s.memWrite .output i x).memRead .output i = x) ∧
  ∀ (s : State) (sp sp' : Space) (i j : Nat) (x : Slot), sp' ≠ sp ∨ j ≠ i →
    (s.memWrite sp i x).memRead sp' j = s.memRead sp' j

/-! ### The validator -/

/-- R135, R136, R138: a truncated or too short frame is invalid; any other panel frame is valid exactly
when ChecksumFn of its span, in order and without byte 1 when ChecksumSkipStop = 1, equals its last
complete byte. ChecksumFn is the configuration's and depends on nothing else of it; Sum8, which RC uses,
is the sum of the bytes as unsigned naturals modulo 256. -/
def Obligations.ValidateIsTheExactChecksum : Prop :=
  Config.rc.checksumFn = .sum8 ∧
  (∀ (c : Config) (xs : List Byte), c.checksumFn = .sum8 →
    (checksum c xs).toNat = (xs.map BitVec.toNat).sum % 256) ∧
  (∀ (c c' : Config) (xs : List Byte), c.checksumFn = c'.checksumFn →
    checksum c xs = checksum c' xs) ∧
  ∀ (c : Config) (x : Slot),
    (8 * c.maxFrameBytes - 7 < x.bitCount → validate c x = false) ∧
    (x.byteCount < c.minValidBytes → validate c x = false) ∧
    (x.bitCount ≤ 8 * c.maxFrameBytes - 7 → c.minValidBytes ≤ x.byteCount →
      x.byteCount ≤ x.bytes.length → 2 ≤ x.byteCount →
      (validate c x = true ↔
        checksum c (if c.checksumSkipStop then
            (x.bytes.take (x.byteCount - 1)).eraseIdx 1
          else x.bytes.take (x.byteCount - 1)) = x.bytes.getD (x.byteCount - 1) 0#8))

/-- R142: no tolerance: replacing the checksum byte of a valid frame by any other byte makes it invalid,
whatever ChecksumFn is. -/
def Obligations.AWrongChecksumByteIsRejected : Prop :=
  ∀ (c : Config) (x : Slot) (y : Byte), c.wf = true → x.Inv c → validate c x = true →
    y ≠ x.bytes.getD (x.byteCount - 1) 0#8 →
    validate c { x with bytes := x.bytes.set (x.byteCount - 1) y } = false

/-- R137, R141: the verdict depends on the complete bytes, byteCount and bitCount alone; trailing bits
and later bytes have no part in it. -/
def Obligations.TrailingBitsDoNotChangeTheVerdict : Prop :=
  ∀ (c : Config) (x y : Slot), c.wf = true → x.byteCount = y.byteCount → x.bitCount = y.bitCount →
    (∀ i < x.byteCount, x.bytes.getD i 0#8 = y.bytes.getD i 0#8) →
    validate c x = validate c y ∧ deviceValid c x = deviceValid c y

/-- R139: the verdict on a device frame. -/
def Obligations.DeviceVerdict : Prop :=
  ∀ (c : Config) (x : Slot),
    (8 * c.maxFrameBytes - 7 < x.bitCount ∨ x.byteCount < 1 → deviceValid c x = false) ∧
    (x.bitCount ≤ 8 * c.maxFrameBytes - 7 → 1 ≤ x.byteCount →
      (c.deviceChecksum = true → deviceValid c x = validate c x) ∧
      (c.deviceChecksum = false → deviceValid c x = true))

/-! ### The flags -/

/-- R127, R128: each clear clears its own flag and changes nothing else: not the other flag, no slot, no
per-frame `trunc`. -/
def Obligations.FlagClearsClearOneFlag : Prop :=
  ∀ s : State, s.Live →
    exec .clrDovf s = .next { s with flags := { s.flags with dataOverflow := false } } ∧
    exec .clrBovf s = .next { s with flags := { s.flags with bufferOverflow := false } }

/-- R26, R197: a sticky flag that is set stays set through every operation but its own clear and INIT;
and only a SAMPLE sets DataOverflow, only a TICK BufferOverflow. -/
def Obligations.StickyFlagsStaySet : Prop :=
  ∀ (i : Instr) (s s' : State), exec i s = .next s' →
    (s.flags.dataOverflow = true → i ≠ .clrDovf → isInit i = false →
      s'.flags.dataOverflow = true) ∧
    (s.flags.bufferOverflow = true → i ≠ .clrBovf → isInit i = false →
      s'.flags.bufferOverflow = true) ∧
    (s.flags.dataOverflow = false → s'.flags.dataOverflow = true → ∃ b, i = .sample b) ∧
    (s.flags.bufferOverflow = false → s'.flags.bufferOverflow = true → ∃ t, i = .tick t)

/-! ### The writer -/

/-- R147: STAGE_SEQ is rejected, with no other effect, when the block is not bound, writes are disabled,
a job is pending, or the list is empty or longer than K; otherwise it is accepted, the job is staged from
its first bit, and nothing else changes: not `writeReady`, not DOUT. -/
def Obligations.StageSeqStagesOneJob : Prop :=
  ∀ (ks : List Byte) (s : State), s.Live →
    (s.ctl.bound = false ∨ s.ctl.writeEnabled = false ∨ s.inj.writePending = true ∨
        ks.length = 0 ∨ s.cfg.maxJobKeys < ks.length →
      exec (.stageSeq ks) s = .next { s with result := some .reject }) ∧
    (s.ctl.bound = true → s.ctl.writeEnabled = true → s.inj.writePending = false →
        0 < ks.length → ks.length ≤ s.cfg.maxJobKeys →
      exec (.stageSeq ks) s = .next { s with
        inj := { s.inj with job := ks, keyIdx := 0, bitIdx := 0, writePending := true }
        result := some .accept })

/-- R146: STAGE_KEY is STAGE_SEQ of one key; it is accepted exactly when the block is bound with writes
enabled and no job pending, since a job of one key is never too long. -/
def Obligations.StageKeyIsAOneKeySequence : Prop :=
  ∀ (k : Byte) (s : State), s.Live →
    exec (.stageKey k) s = exec (.stageSeq [k]) s ∧
    (s.ctl.bound = true → s.ctl.writeEnabled = true → s.inj.writePending = false →
      exec (.stageKey k) s = .next { s with
        inj := { s.inj with job := [k], keyIdx := 0, bitIdx := 0, writePending := true }
        result := some .accept }) ∧
    (s.ctl.bound = false ∨ s.ctl.writeEnabled = false ∨ s.inj.writePending = true →
      exec (.stageKey k) s = .next { s with result := some .reject })

/-! ### The agents -/

/-- R34, R60, R149: a poll, a flag clear or a staging writes no capture state: no framer, edge detector or
phase sampler field, not `writeReady` and not DOUT, nor the control state; and it sets no sticky flag.
INIT, the consumer's operation that resets all of these (R160), is not among them. -/
def Obligations.PollsClearsAndStagingsNeverWriteCaptureState : Prop :=
  ∀ (i : Instr) (s s' : State), isConsumerAccess i = true → exec i s = .next s' →
    s'.panel = s.panel ∧ s'.device = s.device ∧ s'.edge = s.edge ∧ s'.samp = s.samp ∧
    s'.inj.writeReady = s.inj.writeReady ∧ s'.inj.dout = s.inj.dout ∧ s'.ctl = s.ctl ∧
    (s'.flags.dataOverflow = true → s.flags.dataOverflow = true) ∧
    (s'.flags.bufferOverflow = true → s.flags.bufferOverflow = true)

/-- R34, R176: an EDGE, SAMPLE or TICK writes nothing of the FIFO's read side, the output registers or
the control state, and never stages a job: `writePending` is only ever cleared, and then with the job. -/
def Obligations.InterruptStepsNeverWriteTheReadSide : Prop :=
  ∀ (i : Instr) (s s' : State), isConsumerAccess i = false → isInit i = false →
    exec i s = .next s' →
    s'.queue.head = s.queue.head ∧ s'.out = s.out ∧ s'.ctl = s.ctl ∧
    (s'.inj.job = s.inj.job ∧ s'.inj.writePending = s.inj.writePending ∨
      s'.inj.job = [] ∧ s'.inj.writePending = false ∧ ∃ l t, i = .edge l t)

/-- R171: a flag clear commutes with every operation but the one it races with: CLR_DOVF with every
operation but SAMPLE, CLR_BOVF with every operation but TICK. -/
def Obligations.FlagClearsRaceOnlyWithTheirSetter : Prop :=
  ∀ (i : Instr) (s s1 s2 : State), exec i s = .next s1 →
    ((∀ b, i ≠ .sample b) → exec .clrDovf s1 = .next s2 →
      ∃ s3, exec .clrDovf s = .next s3 ∧ exec i s3 = .next s2) ∧
    ((∀ t, i ≠ .tick t) → exec .clrBovf s1 = .next s2 →
      ∃ s3, exec .clrBovf s = .next s3 ∧ exec i s3 = .next s2)

/-- R171: a staging and a TICK that hands off or not reach the same state in either order. -/
def Obligations.StagingAndTickCommute : Prop :=
  ∀ (ks : List Byte) (t : Nat) (s s1 s2 : State), exec (.tick t) s = .next s1 →
    exec (.stageSeq ks) s1 = .next s2 →
    ∃ s3, exec (.stageSeq ks) s = .next s3 ∧ exec (.tick t) s3 = .next s2

/-- R170b: in an admitted run of a bound block without INIT, the timestamps of EDGE and TICK never
decrease, and none is before the latest timestamp taken when the run began. -/
def Obligations.AdmittedTimestampsNeverDecrease : Prop :=
  ∀ (ops : List Instr) (s s' : State), s.Inv → s.ctl.bound = true →
    (∀ i ∈ ops, isInit i = false) → AdmittedRun ops s s' →
    (ops.filterMap timestamp).Pairwise (fun t u => t ≤ u) ∧
    ∀ u, s.edge.tLastEvent = some u → ∀ t ∈ ops.filterMap timestamp, u ≤ t

/-! ### The invariant -/

/-- R36 at power-up, for every well-formed configuration. -/
def Obligations.PowerUpKeepsTheInvariant : Prop :=
  ∀ c : Config, c.wf = true → (State.resetWith c).Inv

/-- R36: every step from a state with the invariant, with any operations given, reaches a state with
it. -/
def Obligations.EveryStepKeepsTheInvariant : Prop :=
  ∀ s s' : State, s.Inv → step s = .next s' → s'.Inv

/-- R156: with writes disabled, DOUT is released in every state a run reaches. -/
def Obligations.WritesDisabledNeverDrives : Prop :=
  ∀ (c : Config) (s : State), c.wf = true → Reachable c s → s.ctl.writeEnabled = false →
    s.inj.dout = none

/-! ### Traces and the whole path of a frame -/

/-- R83: CLOCKBITS expands to one EDGE and one SAMPLE for each bit, the edges dt apart and alternating
from l0, when every edge takes a sample and So < dt, and is refused otherwise. -/
def Obligations.ClockBitsExpansion : Prop :=
  ∀ (c : Config) (l0 : Bit) (t0 dt : Nat) (bits : List Bit),
    (c.sampleOnRising = true ∧ c.sampleOnFalling = true ∧ c.sampleOffset < dt →
      ∃ ops, clockBits c l0 t0 dt bits = .ok ops ∧ ops.length = 2 * bits.length ∧
        ∀ i b, bits[i]? = some b →
          ops[2 * i]? = some (.edge (l0 ^^ decide (i % 2 = 1)) (t0 + i * dt)) ∧
          ops[2 * i + 1]? = some (.sample b)) ∧
    (¬(c.sampleOnRising = true ∧ c.sampleOnFalling = true ∧ c.sampleOffset < dt) →
      clockBits c l0 t0 dt bits = .error .badPseudoOperation)

/-- R65: the path of a panel frame. After INIT, the bits of any frame of three to M bytes, clocked with
no high period above Lh, then a TICK more than Ti after the last edge, then one POP_PANEL, run with no
model fault; the poll delivers exactly the frame's bytes with its counts, and its verdict is the
validator's on them. -/
def Obligations.AFrameOnTheBusIsDelivered : Prop :=
  ∀ (s : State) (w l : Bit) (t0 dt t : Nat) (bytes : List Byte) (bits : List Bit)
    (ops : List Instr), s.Live → s.cfg.sampleOnRising = true → s.cfg.sampleOnFalling = true →
    3 ≤ bytes.length → bytes.length ≤ s.cfg.maxFrameBytes →
    frameBits s.cfg bytes = .ok bits → clockBits s.cfg l t0 dt bits = .ok ops →
    dt ≤ s.cfg.longHighThreshold →
    t0 + (bits.length - 1) * dt + s.cfg.idleThreshold < t →
    let x : Slot :=
      { bytes := bytes ++ List.replicate (s.cfg.maxFrameBytes - bytes.length) 0#8
        byteCount := bytes.length
        bitCount := bits.length }
    ∃ s', AdmittedRun ([.init w] ++ ops ++ [.tick t, .popPanel]) s s' ∧
      s'.out.panelOut = x ∧ s'.out.panelOutValid = validate s.cfg x ∧
      s'.result = some (if validate s.cfg x then .accept else .reject) ∧
      s'.queue.count = 0 ∧ s'.flags = { dataOverflow := false, bufferOverflow := false }
end

