-- ==== Sys2Proof/Laws/State.lean ====
section
/-! SUPPORT. One lemma for each field of State and each named update of it, so that no later proof
unfolds a record update. -/

namespace Sys2Proof.Machine

/-! ### What each update leaves alone -/

@[simp] theorem State.setFramer_cfg (s : State) (d : Dir) (f : Framer) :
    (s.setFramer d f).cfg = s.cfg := by cases d <;> rfl
@[simp] theorem State.setFramer_edge (s : State) (d : Dir) (f : Framer) :
    (s.setFramer d f).edge = s.edge := by cases d <;> rfl
@[simp] theorem State.setFramer_samp (s : State) (d : Dir) (f : Framer) :
    (s.setFramer d f).samp = s.samp := by cases d <;> rfl
@[simp] theorem State.setFramer_flags (s : State) (d : Dir) (f : Framer) :
    (s.setFramer d f).flags = s.flags := by cases d <;> rfl
@[simp] theorem State.setFramer_queue (s : State) (d : Dir) (f : Framer) :
    (s.setFramer d f).queue = s.queue := by cases d <;> rfl
@[simp] theorem State.setFramer_latch (s : State) (d : Dir) (f : Framer) :
    (s.setFramer d f).latch = s.latch := by cases d <;> rfl
@[simp] theorem State.setFramer_out (s : State) (d : Dir) (f : Framer) :
    (s.setFramer d f).out = s.out := by cases d <;> rfl
@[simp] theorem State.setFramer_inj (s : State) (d : Dir) (f : Framer) :
    (s.setFramer d f).inj = s.inj := by cases d <;> rfl
@[simp] theorem State.setFramer_ctl (s : State) (d : Dir) (f : Framer) :
    (s.setFramer d f).ctl = s.ctl := by cases d <;> rfl
@[simp] theorem State.setFramer_fault (s : State) (d : Dir) (f : Framer) :
    (s.setFramer d f).fault = s.fault := by cases d <;> rfl
@[simp] theorem State.setFramer_result (s : State) (d : Dir) (f : Framer) :
    (s.setFramer d f).result = s.result := by cases d <;> rfl
@[simp] theorem State.setFramer_input (s : State) (d : Dir) (f : Framer) :
    (s.setFramer d f).input = s.input := by cases d <;> rfl

@[simp] theorem State.memWrite_cfg (s : State) (sp : Space) (i : Nat) (x : Slot) :
    (s.memWrite sp i x).cfg = s.cfg := by
  cases sp <;> simp only [State.memWrite] <;> (repeat' split) <;> rfl
@[simp] theorem State.memWrite_panel (s : State) (sp : Space) (i : Nat) (x : Slot) :
    (s.memWrite sp i x).panel = s.panel := by
  cases sp <;> simp only [State.memWrite] <;> (repeat' split) <;> rfl
@[simp] theorem State.memWrite_device (s : State) (sp : Space) (i : Nat) (x : Slot) :
    (s.memWrite sp i x).device = s.device := by
  cases sp <;> simp only [State.memWrite] <;> (repeat' split) <;> rfl
@[simp] theorem State.memWrite_edge (s : State) (sp : Space) (i : Nat) (x : Slot) :
    (s.memWrite sp i x).edge = s.edge := by
  cases sp <;> simp only [State.memWrite] <;> (repeat' split) <;> rfl
@[simp] theorem State.memWrite_samp (s : State) (sp : Space) (i : Nat) (x : Slot) :
    (s.memWrite sp i x).samp = s.samp := by
  cases sp <;> simp only [State.memWrite] <;> (repeat' split) <;> rfl
@[simp] theorem State.memWrite_flags (s : State) (sp : Space) (i : Nat) (x : Slot) :
    (s.memWrite sp i x).flags = s.flags := by
  cases sp <;> simp only [State.memWrite] <;> (repeat' split) <;> rfl
@[simp] theorem State.memWrite_inj (s : State) (sp : Space) (i : Nat) (x : Slot) :
    (s.memWrite sp i x).inj = s.inj := by
  cases sp <;> simp only [State.memWrite] <;> (repeat' split) <;> rfl
@[simp] theorem State.memWrite_ctl (s : State) (sp : Space) (i : Nat) (x : Slot) :
    (s.memWrite sp i x).ctl = s.ctl := by
  cases sp <;> simp only [State.memWrite] <;> (repeat' split) <;> rfl
@[simp] theorem State.memWrite_fault (s : State) (sp : Space) (i : Nat) (x : Slot) :
    (s.memWrite sp i x).fault = s.fault := by
  cases sp <;> simp only [State.memWrite] <;> (repeat' split) <;> rfl
@[simp] theorem State.memWrite_result (s : State) (sp : Space) (i : Nat) (x : Slot) :
    (s.memWrite sp i x).result = s.result := by
  cases sp <;> simp only [State.memWrite] <;> (repeat' split) <;> rfl
@[simp] theorem State.memWrite_input (s : State) (sp : Space) (i : Nat) (x : Slot) :
    (s.memWrite sp i x).input = s.input := by
  cases sp <;> simp only [State.memWrite] <;> (repeat' split) <;> rfl

@[simp] theorem State.stampEvent_cfg (s : State) (t : Nat) : (s.stampEvent t).cfg = s.cfg := rfl
@[simp] theorem State.stampEvent_panel (s : State) (t : Nat) :
    (s.stampEvent t).panel = s.panel := rfl
@[simp] theorem State.stampEvent_device (s : State) (t : Nat) :
    (s.stampEvent t).device = s.device := rfl
@[simp] theorem State.stampEvent_samp (s : State) (t : Nat) : (s.stampEvent t).samp = s.samp := rfl
@[simp] theorem State.stampEvent_flags (s : State) (t : Nat) :
    (s.stampEvent t).flags = s.flags := rfl
@[simp] theorem State.stampEvent_queue (s : State) (t : Nat) :
    (s.stampEvent t).queue = s.queue := rfl
@[simp] theorem State.stampEvent_latch (s : State) (t : Nat) :
    (s.stampEvent t).latch = s.latch := rfl
@[simp] theorem State.stampEvent_out (s : State) (t : Nat) : (s.stampEvent t).out = s.out := rfl
@[simp] theorem State.stampEvent_inj (s : State) (t : Nat) : (s.stampEvent t).inj = s.inj := rfl
@[simp] theorem State.stampEvent_ctl (s : State) (t : Nat) : (s.stampEvent t).ctl = s.ctl := rfl
@[simp] theorem State.stampEvent_fault (s : State) (t : Nat) :
    (s.stampEvent t).fault = s.fault := rfl
@[simp] theorem State.stampEvent_result (s : State) (t : Nat) :
    (s.stampEvent t).result = s.result := rfl
@[simp] theorem State.stampEvent_input (s : State) (t : Nat) :
    (s.stampEvent t).input = s.input := rfl

@[simp] theorem State.record_cfg (s : State) (e : BlockError) :
    (s.record e).cfg = s.cfg := by cases e <;> rfl
@[simp] theorem State.record_panel (s : State) (e : BlockError) :
    (s.record e).panel = s.panel := by cases e <;> rfl
@[simp] theorem State.record_device (s : State) (e : BlockError) :
    (s.record e).device = s.device := by cases e <;> rfl
@[simp] theorem State.record_edge (s : State) (e : BlockError) :
    (s.record e).edge = s.edge := by cases e <;> rfl
@[simp] theorem State.record_samp (s : State) (e : BlockError) :
    (s.record e).samp = s.samp := by cases e <;> rfl
@[simp] theorem State.record_queue (s : State) (e : BlockError) :
    (s.record e).queue = s.queue := by cases e <;> rfl
@[simp] theorem State.record_latch (s : State) (e : BlockError) :
    (s.record e).latch = s.latch := by cases e <;> rfl
@[simp] theorem State.record_out (s : State) (e : BlockError) :
    (s.record e).out = s.out := by cases e <;> rfl
@[simp] theorem State.record_inj (s : State) (e : BlockError) :
    (s.record e).inj = s.inj := by cases e <;> rfl
@[simp] theorem State.record_ctl (s : State) (e : BlockError) :
    (s.record e).ctl = s.ctl := by cases e <;> rfl
@[simp] theorem State.record_fault (s : State) (e : BlockError) :
    (s.record e).fault = s.fault := by cases e <;> rfl
@[simp] theorem State.record_result (s : State) (e : BlockError) :
    (s.record e).result = s.result := by cases e <;> rfl
@[simp] theorem State.record_input (s : State) (e : BlockError) :
    (s.record e).input = s.input := by cases e <;> rfl

@[simp] theorem State.clearDataOverflow_cfg (s : State) : s.clearDataOverflow.cfg = s.cfg := rfl
@[simp] theorem State.clearDataOverflow_panel (s : State) :
    s.clearDataOverflow.panel = s.panel := rfl
@[simp] theorem State.clearDataOverflow_device (s : State) :
    s.clearDataOverflow.device = s.device := rfl
@[simp] theorem State.clearDataOverflow_edge (s : State) : s.clearDataOverflow.edge = s.edge := rfl
@[simp] theorem State.clearDataOverflow_samp (s : State) : s.clearDataOverflow.samp = s.samp := rfl
@[simp] theorem State.clearDataOverflow_queue (s : State) :
    s.clearDataOverflow.queue = s.queue := rfl
@[simp] theorem State.clearDataOverflow_latch (s : State) :
    s.clearDataOverflow.latch = s.latch := rfl
@[simp] theorem State.clearDataOverflow_out (s : State) : s.clearDataOverflow.out = s.out := rfl
@[simp] theorem State.clearDataOverflow_inj (s : State) : s.clearDataOverflow.inj = s.inj := rfl
@[simp] theorem State.clearDataOverflow_ctl (s : State) : s.clearDataOverflow.ctl = s.ctl := rfl
@[simp] theorem State.clearDataOverflow_fault (s : State) :
    s.clearDataOverflow.fault = s.fault := rfl
@[simp] theorem State.clearDataOverflow_result (s : State) :
    s.clearDataOverflow.result = s.result := rfl
@[simp] theorem State.clearDataOverflow_input (s : State) :
    s.clearDataOverflow.input = s.input := rfl

@[simp] theorem State.clearBufferOverflow_cfg (s : State) : s.clearBufferOverflow.cfg = s.cfg := rfl
@[simp] theorem State.clearBufferOverflow_panel (s : State) :
    s.clearBufferOverflow.panel = s.panel := rfl
@[simp] theorem State.clearBufferOverflow_device (s : State) :
    s.clearBufferOverflow.device = s.device := rfl
@[simp] theorem State.clearBufferOverflow_edge (s : State) :
    s.clearBufferOverflow.edge = s.edge := rfl
@[simp] theorem State.clearBufferOverflow_samp (s : State) :
    s.clearBufferOverflow.samp = s.samp := rfl
@[simp] theorem State.clearBufferOverflow_queue (s : State) :
    s.clearBufferOverflow.queue = s.queue := rfl
@[simp] theorem State.clearBufferOverflow_latch (s : State) :
    s.clearBufferOverflow.latch = s.latch := rfl
@[simp] theorem State.clearBufferOverflow_out (s : State) : s.clearBufferOverflow.out = s.out := rfl
@[simp] theorem State.clearBufferOverflow_inj (s : State) : s.clearBufferOverflow.inj = s.inj := rfl
@[simp] theorem State.clearBufferOverflow_ctl (s : State) : s.clearBufferOverflow.ctl = s.ctl := rfl
@[simp] theorem State.clearBufferOverflow_fault (s : State) :
    s.clearBufferOverflow.fault = s.fault := rfl
@[simp] theorem State.clearBufferOverflow_result (s : State) :
    s.clearBufferOverflow.result = s.result := rfl
@[simp] theorem State.clearBufferOverflow_input (s : State) :
    s.clearBufferOverflow.input = s.input := rfl

@[simp] theorem State.recordEdge_cfg (s : State) (l : Bit) (t : Nat) :
    (s.recordEdge l t).cfg = s.cfg := rfl
@[simp] theorem State.recordEdge_panel (s : State) (l : Bit) (t : Nat) :
    (s.recordEdge l t).panel = s.panel := rfl
@[simp] theorem State.recordEdge_device (s : State) (l : Bit) (t : Nat) :
    (s.recordEdge l t).device = s.device := rfl
@[simp] theorem State.recordEdge_samp (s : State) (l : Bit) (t : Nat) :
    (s.recordEdge l t).samp = s.samp := rfl
@[simp] theorem State.recordEdge_flags (s : State) (l : Bit) (t : Nat) :
    (s.recordEdge l t).flags = s.flags := rfl
@[simp] theorem State.recordEdge_queue (s : State) (l : Bit) (t : Nat) :
    (s.recordEdge l t).queue = s.queue := rfl
@[simp] theorem State.recordEdge_latch (s : State) (l : Bit) (t : Nat) :
    (s.recordEdge l t).latch = s.latch := rfl
@[simp] theorem State.recordEdge_out (s : State) (l : Bit) (t : Nat) :
    (s.recordEdge l t).out = s.out := rfl
@[simp] theorem State.recordEdge_inj (s : State) (l : Bit) (t : Nat) :
    (s.recordEdge l t).inj = s.inj := rfl
@[simp] theorem State.recordEdge_ctl (s : State) (l : Bit) (t : Nat) :
    (s.recordEdge l t).ctl = s.ctl := rfl
@[simp] theorem State.recordEdge_fault (s : State) (l : Bit) (t : Nat) :
    (s.recordEdge l t).fault = s.fault := rfl
@[simp] theorem State.recordEdge_result (s : State) (l : Bit) (t : Nat) :
    (s.recordEdge l t).result = s.result := rfl
@[simp] theorem State.recordEdge_input (s : State) (l : Bit) (t : Nat) :
    (s.recordEdge l t).input = s.input := rfl

@[simp] theorem State.openWindow_cfg (s : State) (d : Dir) :
    (s.openWindow d).cfg = s.cfg := by unfold State.openWindow; split <;> rfl
@[simp] theorem State.openWindow_panel (s : State) (d : Dir) :
    (s.openWindow d).panel = s.panel := by unfold State.openWindow; split <;> rfl
@[simp] theorem State.openWindow_device (s : State) (d : Dir) :
    (s.openWindow d).device = s.device := by unfold State.openWindow; split <;> rfl
@[simp] theorem State.openWindow_samp (s : State) (d : Dir) :
    (s.openWindow d).samp = s.samp := by unfold State.openWindow; split <;> rfl
@[simp] theorem State.openWindow_flags (s : State) (d : Dir) :
    (s.openWindow d).flags = s.flags := by unfold State.openWindow; split <;> rfl
@[simp] theorem State.openWindow_queue (s : State) (d : Dir) :
    (s.openWindow d).queue = s.queue := by unfold State.openWindow; split <;> rfl
@[simp] theorem State.openWindow_latch (s : State) (d : Dir) :
    (s.openWindow d).latch = s.latch := by unfold State.openWindow; split <;> rfl
@[simp] theorem State.openWindow_out (s : State) (d : Dir) :
    (s.openWindow d).out = s.out := by unfold State.openWindow; split <;> rfl
@[simp] theorem State.openWindow_ctl (s : State) (d : Dir) :
    (s.openWindow d).ctl = s.ctl := by unfold State.openWindow; split <;> rfl
@[simp] theorem State.openWindow_fault (s : State) (d : Dir) :
    (s.openWindow d).fault = s.fault := by unfold State.openWindow; split <;> rfl
@[simp] theorem State.openWindow_result (s : State) (d : Dir) :
    (s.openWindow d).result = s.result := by unfold State.openWindow; split <;> rfl
@[simp] theorem State.openWindow_input (s : State) (d : Dir) :
    (s.openWindow d).input = s.input := by unfold State.openWindow; split <;> rfl

@[simp] theorem State.inject_cfg (s : State) (sampled : Bool) :
    (s.inject sampled).cfg = s.cfg := by unfold State.inject; split <;> rfl
@[simp] theorem State.inject_panel (s : State) (sampled : Bool) :
    (s.inject sampled).panel = s.panel := by unfold State.inject; split <;> rfl
@[simp] theorem State.inject_device (s : State) (sampled : Bool) :
    (s.inject sampled).device = s.device := by unfold State.inject; split <;> rfl
@[simp] theorem State.inject_edge (s : State) (sampled : Bool) :
    (s.inject sampled).edge = s.edge := by unfold State.inject; split <;> rfl
@[simp] theorem State.inject_samp (s : State) (sampled : Bool) :
    (s.inject sampled).samp = s.samp := by unfold State.inject; split <;> rfl
@[simp] theorem State.inject_flags (s : State) (sampled : Bool) :
    (s.inject sampled).flags = s.flags := by unfold State.inject; split <;> rfl
@[simp] theorem State.inject_queue (s : State) (sampled : Bool) :
    (s.inject sampled).queue = s.queue := by unfold State.inject; split <;> rfl
@[simp] theorem State.inject_latch (s : State) (sampled : Bool) :
    (s.inject sampled).latch = s.latch := by unfold State.inject; split <;> rfl
@[simp] theorem State.inject_out (s : State) (sampled : Bool) :
    (s.inject sampled).out = s.out := by unfold State.inject; split <;> rfl
@[simp] theorem State.inject_ctl (s : State) (sampled : Bool) :
    (s.inject sampled).ctl = s.ctl := by unfold State.inject; split <;> rfl
@[simp] theorem State.inject_fault (s : State) (sampled : Bool) :
    (s.inject sampled).fault = s.fault := by unfold State.inject; split <;> rfl
@[simp] theorem State.inject_result (s : State) (sampled : Bool) :
    (s.inject sampled).result = s.result := by unfold State.inject; split <;> rfl
@[simp] theorem State.inject_input (s : State) (sampled : Bool) :
    (s.inject sampled).input = s.input := by unfold State.inject; split <;> rfl

@[simp] theorem State.armSample_cfg (s : State) (sampled : Bool) (t : Nat) :
    (s.armSample sampled t).cfg = s.cfg := by unfold State.armSample; split <;> rfl
@[simp] theorem State.armSample_panel (s : State) (sampled : Bool) (t : Nat) :
    (s.armSample sampled t).panel = s.panel := by unfold State.armSample; split <;> rfl
@[simp] theorem State.armSample_device (s : State) (sampled : Bool) (t : Nat) :
    (s.armSample sampled t).device = s.device := by unfold State.armSample; split <;> rfl
@[simp] theorem State.armSample_edge (s : State) (sampled : Bool) (t : Nat) :
    (s.armSample sampled t).edge = s.edge := by unfold State.armSample; split <;> rfl
@[simp] theorem State.armSample_flags (s : State) (sampled : Bool) (t : Nat) :
    (s.armSample sampled t).flags = s.flags := by unfold State.armSample; split <;> rfl
@[simp] theorem State.armSample_queue (s : State) (sampled : Bool) (t : Nat) :
    (s.armSample sampled t).queue = s.queue := by unfold State.armSample; split <;> rfl
@[simp] theorem State.armSample_latch (s : State) (sampled : Bool) (t : Nat) :
    (s.armSample sampled t).latch = s.latch := by unfold State.armSample; split <;> rfl
@[simp] theorem State.armSample_out (s : State) (sampled : Bool) (t : Nat) :
    (s.armSample sampled t).out = s.out := by unfold State.armSample; split <;> rfl
@[simp] theorem State.armSample_inj (s : State) (sampled : Bool) (t : Nat) :
    (s.armSample sampled t).inj = s.inj := by unfold State.armSample; split <;> rfl
@[simp] theorem State.armSample_ctl (s : State) (sampled : Bool) (t : Nat) :
    (s.armSample sampled t).ctl = s.ctl := by unfold State.armSample; split <;> rfl
@[simp] theorem State.armSample_fault (s : State) (sampled : Bool) (t : Nat) :
    (s.armSample sampled t).fault = s.fault := by unfold State.armSample; split <;> rfl
@[simp] theorem State.armSample_result (s : State) (sampled : Bool) (t : Nat) :
    (s.armSample sampled t).result = s.result := by unfold State.armSample; split <;> rfl
@[simp] theorem State.armSample_input (s : State) (sampled : Bool) (t : Nat) :
    (s.armSample sampled t).input = s.input := by unfold State.armSample; split <;> rfl

@[simp] theorem State.withJob_cfg (s : State) (ks : List Byte) : (s.withJob ks).cfg = s.cfg := rfl
@[simp] theorem State.withJob_panel (s : State) (ks : List Byte) :
    (s.withJob ks).panel = s.panel := rfl
@[simp] theorem State.withJob_device (s : State) (ks : List Byte) :
    (s.withJob ks).device = s.device := rfl
@[simp] theorem State.withJob_edge (s : State) (ks : List Byte) :
    (s.withJob ks).edge = s.edge := rfl
@[simp] theorem State.withJob_samp (s : State) (ks : List Byte) :
    (s.withJob ks).samp = s.samp := rfl
@[simp] theorem State.withJob_flags (s : State) (ks : List Byte) :
    (s.withJob ks).flags = s.flags := rfl
@[simp] theorem State.withJob_queue (s : State) (ks : List Byte) :
    (s.withJob ks).queue = s.queue := rfl
@[simp] theorem State.withJob_latch (s : State) (ks : List Byte) :
    (s.withJob ks).latch = s.latch := rfl
@[simp] theorem State.withJob_out (s : State) (ks : List Byte) : (s.withJob ks).out = s.out := rfl
@[simp] theorem State.withJob_ctl (s : State) (ks : List Byte) : (s.withJob ks).ctl = s.ctl := rfl
@[simp] theorem State.withJob_fault (s : State) (ks : List Byte) :
    (s.withJob ks).fault = s.fault := rfl
@[simp] theorem State.withJob_result (s : State) (ks : List Byte) :
    (s.withJob ks).result = s.result := rfl
@[simp] theorem State.withJob_input (s : State) (ks : List Byte) :
    (s.withJob ks).input = s.input := rfl

@[simp] theorem State.fifoAppend_cfg (s : State) (x : Slot) :
    (s.fifoAppend x).cfg = s.cfg := by unfold State.fifoAppend; split <;> rfl
@[simp] theorem State.fifoAppend_panel (s : State) (x : Slot) :
    (s.fifoAppend x).panel = s.panel := by unfold State.fifoAppend; split <;> rfl
@[simp] theorem State.fifoAppend_device (s : State) (x : Slot) :
    (s.fifoAppend x).device = s.device := by unfold State.fifoAppend; split <;> rfl
@[simp] theorem State.fifoAppend_edge (s : State) (x : Slot) :
    (s.fifoAppend x).edge = s.edge := by unfold State.fifoAppend; split <;> rfl
@[simp] theorem State.fifoAppend_samp (s : State) (x : Slot) :
    (s.fifoAppend x).samp = s.samp := by unfold State.fifoAppend; split <;> rfl
@[simp] theorem State.fifoAppend_latch (s : State) (x : Slot) :
    (s.fifoAppend x).latch = s.latch := by unfold State.fifoAppend; split <;> rfl
@[simp] theorem State.fifoAppend_out (s : State) (x : Slot) :
    (s.fifoAppend x).out = s.out := by unfold State.fifoAppend; split <;> rfl
@[simp] theorem State.fifoAppend_inj (s : State) (x : Slot) :
    (s.fifoAppend x).inj = s.inj := by unfold State.fifoAppend; split <;> rfl
@[simp] theorem State.fifoAppend_ctl (s : State) (x : Slot) :
    (s.fifoAppend x).ctl = s.ctl := by unfold State.fifoAppend; split <;> rfl
@[simp] theorem State.fifoAppend_fault (s : State) (x : Slot) :
    (s.fifoAppend x).fault = s.fault := by unfold State.fifoAppend; split <;> rfl
@[simp] theorem State.fifoAppend_result (s : State) (x : Slot) :
    (s.fifoAppend x).result = s.result := by unfold State.fifoAppend; split <;> rfl
@[simp] theorem State.fifoAppend_input (s : State) (x : Slot) :
    (s.fifoAppend x).input = s.input := by unfold State.fifoAppend; split <;> rfl

@[simp] theorem State.latchDevice_cfg (s : State) (x : Slot) : (s.latchDevice x).cfg = s.cfg := rfl
@[simp] theorem State.latchDevice_panel (s : State) (x : Slot) :
    (s.latchDevice x).panel = s.panel := rfl
@[simp] theorem State.latchDevice_device (s : State) (x : Slot) :
    (s.latchDevice x).device = s.device := rfl
@[simp] theorem State.latchDevice_edge (s : State) (x : Slot) :
    (s.latchDevice x).edge = s.edge := rfl
@[simp] theorem State.latchDevice_samp (s : State) (x : Slot) :
    (s.latchDevice x).samp = s.samp := rfl
@[simp] theorem State.latchDevice_flags (s : State) (x : Slot) :
    (s.latchDevice x).flags = s.flags := rfl
@[simp] theorem State.latchDevice_queue (s : State) (x : Slot) :
    (s.latchDevice x).queue = s.queue := rfl
@[simp] theorem State.latchDevice_out (s : State) (x : Slot) : (s.latchDevice x).out = s.out := rfl
@[simp] theorem State.latchDevice_inj (s : State) (x : Slot) : (s.latchDevice x).inj = s.inj := rfl
@[simp] theorem State.latchDevice_ctl (s : State) (x : Slot) : (s.latchDevice x).ctl = s.ctl := rfl
@[simp] theorem State.latchDevice_fault (s : State) (x : Slot) :
    (s.latchDevice x).fault = s.fault := rfl
@[simp] theorem State.latchDevice_result (s : State) (x : Slot) :
    (s.latchDevice x).result = s.result := rfl
@[simp] theorem State.latchDevice_input (s : State) (x : Slot) :
    (s.latchDevice x).input = s.input := rfl

@[simp] theorem State.resetCapture_cfg (s : State) : s.resetCapture.cfg = s.cfg := rfl
@[simp] theorem State.resetCapture_samp (s : State) : s.resetCapture.samp = s.samp := rfl
@[simp] theorem State.resetCapture_flags (s : State) : s.resetCapture.flags = s.flags := rfl
@[simp] theorem State.resetCapture_queue (s : State) : s.resetCapture.queue = s.queue := rfl
@[simp] theorem State.resetCapture_latch (s : State) : s.resetCapture.latch = s.latch := rfl
@[simp] theorem State.resetCapture_out (s : State) : s.resetCapture.out = s.out := rfl
@[simp] theorem State.resetCapture_ctl (s : State) : s.resetCapture.ctl = s.ctl := rfl
@[simp] theorem State.resetCapture_fault (s : State) : s.resetCapture.fault = s.fault := rfl
@[simp] theorem State.resetCapture_result (s : State) : s.resetCapture.result = s.result := rfl
@[simp] theorem State.resetCapture_input (s : State) : s.resetCapture.input = s.input := rfl

@[simp] theorem State.takePanel_cfg (s : State) : s.takePanel.cfg = s.cfg := rfl
@[simp] theorem State.takePanel_panel (s : State) : s.takePanel.panel = s.panel := rfl
@[simp] theorem State.takePanel_device (s : State) : s.takePanel.device = s.device := rfl
@[simp] theorem State.takePanel_edge (s : State) : s.takePanel.edge = s.edge := rfl
@[simp] theorem State.takePanel_samp (s : State) : s.takePanel.samp = s.samp := rfl
@[simp] theorem State.takePanel_flags (s : State) : s.takePanel.flags = s.flags := rfl
@[simp] theorem State.takePanel_latch (s : State) : s.takePanel.latch = s.latch := rfl
@[simp] theorem State.takePanel_inj (s : State) : s.takePanel.inj = s.inj := rfl
@[simp] theorem State.takePanel_ctl (s : State) : s.takePanel.ctl = s.ctl := rfl
@[simp] theorem State.takePanel_fault (s : State) : s.takePanel.fault = s.fault := rfl
@[simp] theorem State.takePanel_result (s : State) : s.takePanel.result = s.result := rfl
@[simp] theorem State.takePanel_input (s : State) : s.takePanel.input = s.input := rfl

@[simp] theorem State.takeDevice_cfg (s : State) : s.takeDevice.cfg = s.cfg := rfl
@[simp] theorem State.takeDevice_panel (s : State) : s.takeDevice.panel = s.panel := rfl
@[simp] theorem State.takeDevice_device (s : State) : s.takeDevice.device = s.device := rfl
@[simp] theorem State.takeDevice_edge (s : State) : s.takeDevice.edge = s.edge := rfl
@[simp] theorem State.takeDevice_samp (s : State) : s.takeDevice.samp = s.samp := rfl
@[simp] theorem State.takeDevice_flags (s : State) : s.takeDevice.flags = s.flags := rfl
@[simp] theorem State.takeDevice_queue (s : State) : s.takeDevice.queue = s.queue := rfl
@[simp] theorem State.takeDevice_inj (s : State) : s.takeDevice.inj = s.inj := rfl
@[simp] theorem State.takeDevice_ctl (s : State) : s.takeDevice.ctl = s.ctl := rfl
@[simp] theorem State.takeDevice_fault (s : State) : s.takeDevice.fault = s.fault := rfl
@[simp] theorem State.takeDevice_result (s : State) : s.takeDevice.result = s.result := rfl
@[simp] theorem State.takeDevice_input (s : State) : s.takeDevice.input = s.input := rfl

/-! ### What each update writes -/

@[simp] theorem State.framer_panel (s : State) : s.framer .panel = s.panel := rfl
@[simp] theorem State.framer_device (s : State) : s.framer .device = s.device := rfl

@[simp] theorem State.framer_setFramer_same (s : State) (d : Dir) (f : Framer) :
    (s.setFramer d f).framer d = f := by cases d <;> rfl

theorem State.framer_setFramer_other (s : State) (d e : Dir) (f : Framer) (h : e ≠ d) :
    (s.setFramer d f).framer e = s.framer e := by
  cases d <;> cases e <;> first | rfl | exact absurd rfl h

@[simp] theorem State.stampEvent_edge (s : State) (t : Nat) :
    (s.stampEvent t).edge = { s.edge with tLastEvent := some t } := rfl
@[simp] theorem State.clearDataOverflow_flags (s : State) :
    s.clearDataOverflow.flags = { s.flags with dataOverflow := false } := rfl
@[simp] theorem State.clearBufferOverflow_flags (s : State) :
    s.clearBufferOverflow.flags = { s.flags with bufferOverflow := false } := rfl
@[simp] theorem State.record_dataOverflow_flags (s : State) :
    (s.record .dataOverflow).flags = { s.flags with dataOverflow := true } := rfl
@[simp] theorem State.record_bufferOverflow_flags (s : State) :
    (s.record .bufferOverflow).flags = { s.flags with bufferOverflow := true } := rfl
@[simp] theorem State.record_integrityFailure (s : State) : s.record .integrityFailure = s := rfl
@[simp] theorem State.recordEdge_edge (s : State) (l : Bit) (t : Nat) :
    (s.recordEdge l t).edge = { s.edge with
      clk := some l
      tLastEdge := some t
      tLastEvent := some t
      tLastRise := if l then some t else s.edge.tLastRise } := rfl
@[simp] theorem State.withJob_inj (s : State) (ks : List Byte) :
    (s.withJob ks).inj =
      { s.inj with job := ks, keyIdx := 0, bitIdx := 0, writePending := true } := rfl
@[simp] theorem State.latchDevice_latch (s : State) (x : Slot) :
    (s.latchDevice x).latch = { slot := x, full := true } := rfl
@[simp] theorem State.resetCapture_panel (s : State) :
    s.resetCapture.panel = Framer.empty s.cfg := rfl
@[simp] theorem State.resetCapture_device (s : State) :
    s.resetCapture.device = Framer.empty s.cfg := rfl
@[simp] theorem State.resetCapture_edge (s : State) :
    s.resetCapture.edge = { s.edge with dir := .panel, tLastRise := none } := rfl
@[simp] theorem State.resetCapture_inj (s : State) :
    s.resetCapture.inj = { s.inj with writeReady := false, bitIdx := 0, dout := none } := rfl
@[simp] theorem State.takePanel_queue (s : State) :
    s.takePanel.queue =
      { fifo := s.queue.fifo.set s.queue.head (Slot.empty s.cfg)
        head := (s.queue.head + 1) % s.cfg.queueCapacity
        count := s.queue.count - 1 } := rfl
@[simp] theorem State.takePanel_out (s : State) :
    s.takePanel.out = { s.out with
      panelOut := s.memRead .fifo s.queue.head
      panelOutValid := validate s.cfg (s.memRead .fifo s.queue.head) } := rfl
@[simp] theorem State.takeDevice_latch (s : State) :
    s.takeDevice.latch = { slot := Slot.empty s.cfg, full := false } := rfl
@[simp] theorem State.takeDevice_out (s : State) :
    s.takeDevice.out = { s.out with
      deviceOut := s.latch.slot
      deviceOutValid := deviceValid s.cfg s.latch.slot } := rfl

end Sys2Proof.Machine
end

