-- ==== Sys2Proof/Laws/Ops.lean ====
section
/-! SUPPORT. For each shared operation, one lemma that says everything it can do, and for each meaning
the cases in which it has a next state. Proofs cite these and do not unfold the operations. -/

namespace Sys2Proof.Machine

/-! ### The gate -/

theorem State.whenEnabled_of_live {s : State} (h : s.Live) (body : Out) :
    s.whenEnabled body = body := by
  simp [State.whenEnabled, h.1, h.2]

theorem State.whenEnabled_eq_next {s s' : State} {body : Out} (h : s.whenEnabled body = .next s') :
    s.Live ∧ body = .next s' := by
  unfold State.whenEnabled at h
  split at h
  · cases h
  · split at h
    · cases h
    · rename_i hw hf
      exact ⟨⟨by simpa using hw, by simpa using hf⟩, h⟩

theorem State.whenEnabled_illFormed {s : State} (h : s.cfg.wf = false) (body : Out) :
    s.whenEnabled body = .refused .illFormedConfiguration := by
  simp [State.whenEnabled, h]

theorem State.whenEnabled_faulted {s : State} (h : s.cfg.wf = true) (hf : s.fault ≠ none)
    (body : Out) : s.whenEnabled body = .fault .modelFaulted := by
  simp [State.whenEnabled, h, Option.isSome_iff_ne_none, hf]

/-! ### Tests on times -/

theorem laterThan_iff (u : Option Nat) (t : Nat) :
    laterThan u t = true ↔ ∃ v, u = some v ∧ t < v := by
  cases u <;> simp [laterThan]

theorem laterThan_eq_false (u : Option Nat) (t : Nat) :
    laterThan u t = false ↔ ∀ v, u = some v → v ≤ t := by
  cases u <;> simp [laterThan]

theorem elapsedOver_iff (u : Option Nat) (t d : Nat) :
    elapsedOver u t d = true ↔ ∃ v, u = some v ∧ v + d < t := by
  cases u <;> simp [elapsedOver]

theorem State.sampleDueBy_iff (s : State) (t : Nat) :
    s.sampleDueBy t = true ↔ s.samp.pending = true ∧ s.samp.due ≤ t := by
  simp [State.sampleDueBy]

/-! ### EDGE -/

/-- Everything an EDGE can do: it is ignored, it raises one of the three model faults in order, or it is
taken. -/
theorem execEdge_cases {l : Bit} {t : Nat} {s s' : State} (h : execEdge l t s = .next s') :
    s.Live ∧
    ((s.ctl.bound = false ∧ s' = s) ∨
     (s.ctl.bound = true ∧ s.sampleDueBy t = false ∧
      ((laterThan s.edge.tLastEvent t = true ∧ s' = { s with fault := some .timeReversal }) ∨
       (laterThan s.edge.tLastEvent t = false ∧ s.samp.pending = true ∧ t < s.samp.due ∧
          s' = { s with fault := some .sampleOverrun }) ∨
       (laterThan s.edge.tLastEvent t = false ∧ s.samp.pending = false ∧ s.edge.clk = some l ∧
          s' = { s with fault := some .notATransition }) ∨
       (laterThan s.edge.tLastEvent t = false ∧ s.samp.pending = false ∧ s.edge.clk ≠ some l ∧
          s' = s.takeEdge l t)))) := by
  obtain ⟨hl, h⟩ := State.whenEnabled_eq_next h
  refine ⟨hl, ?_⟩
  cases hb : s.ctl.bound
  · exact .inl ⟨rfl, by simpa [hb] using h.symm⟩
  · refine .inr ⟨rfl, ?_⟩
    cases hd : s.sampleDueBy t
    · refine ⟨rfl, ?_⟩
      cases hr : laterThan s.edge.tLastEvent t
      · cases hp : s.samp.pending
        · by_cases hc : s.edge.clk = some l
          · exact .inr (.inr (.inl ⟨rfl, rfl, hc,
              by simpa [hb, hd, hr, hp, hc, State.raise] using h.symm⟩))
          · exact .inr (.inr (.inr ⟨rfl, rfl, hc, by simpa [hb, hd, hr, hp, hc] using h.symm⟩))
        · have hlt : t < s.samp.due := by simpa [State.sampleDueBy, hp] using hd
          exact .inr (.inl ⟨rfl, rfl, hlt,
            by simpa [hb, hd, hr, hp, hlt, State.raise] using h.symm⟩)
      · exact .inl ⟨rfl, by simpa [hb, hd, hr, State.raise] using h.symm⟩
    · simp [hb, hd] at h

/-- When an EDGE is taken. -/
theorem execEdge_taken {l : Bit} {t : Nat} {s : State} (hl : s.Live) (hb : s.ctl.bound = true)
    (hp : s.samp.pending = false) (hr : laterThan s.edge.tLastEvent t = false)
    (hc : s.edge.clk ≠ some l) : execEdge l t s = .next (s.takeEdge l t) := by
  rw [execEdge, State.whenEnabled_of_live hl]
  simp [hb, hp, hr, hc, State.sampleDueBy]

/-- The direction an edge is classified into (R91). -/
theorem State.classify_eq_device (s : State) (l : Bit) (t : Nat) :
    s.classify l t = .device ↔ s.edge.dir = .device ∨
      (l = false ∧ ∃ r, s.edge.tLastRise = some r ∧ r + s.cfg.longHighThreshold < t) := by
  unfold State.classify
  split
  · simp [*]
  · split
    · rename_i h1 h2
      simp only [Bool.and_eq_true, Bool.not_eq_true', elapsedOver_iff] at h2
      simp [h2]
    · rename_i h1 h2
      simp only [Bool.and_eq_true, Bool.not_eq_true', elapsedOver_iff] at h2
      simpa [h1] using h2

/-- What a taken EDGE leaves in the edge detector. -/
theorem State.takeEdge_edge (s : State) (l : Bit) (t : Nat) :
    (s.takeEdge l t).edge =
      { clk := some l, tLastEdge := some t, tLastEvent := some t
        tLastRise := if l then some t else s.edge.tLastRise
        dir := s.classify l t } := by
  have hd : s.edge.dir = .device → s.classify l t = .device := fun h =>
    (s.classify_eq_device l t).mpr (.inl h)
  unfold State.takeEdge
  simp only [State.armSample_edge, State.inject_edge, State.openWindow]
  split
  · rename_i h
    simp [h.1]
  · rename_i h
    simp only [State.recordEdge_edge, not_and] at h ⊢
    rcases hc : s.classify l t with _ | _
    · cases hs : s.edge.dir
      · rfl
      · rw [hd hs] at hc; cases hc
    · have := h hc
      cases hs : s.edge.dir
      · exact absurd hs this
      · rfl

/-- A taken EDGE writes only the edge detector, the phase sampler and the injector. -/
theorem State.takeEdge_frame (s : State) (l : Bit) (t : Nat) :
    s.takeEdge l t = { s with
      edge := (s.takeEdge l t).edge
      samp := (s.takeEdge l t).samp
      inj := (s.takeEdge l t).inj } := by
  unfold State.takeEdge State.armSample State.inject State.openWindow
  dsimp only
  split <;> split <;> split <;> rfl

/-- The sample a taken EDGE arms. -/
theorem State.takeEdge_samp (s : State) (l : Bit) (t : Nat) :
    (s.takeEdge l t).samp =
      if Config.samples s.cfg l then
        { pending := true, due := t + s.cfg.sampleOffset, dir := s.classify l t }
      else s.samp := by
  have he := s.takeEdge_edge l t
  simp only [State.takeEdge, State.armSample_edge, State.inject_edge] at he
  cases h : Config.samples s.cfg l <;> simp [State.takeEdge, State.armSample, h, he]

/-- The state in which a taken EDGE injects. -/
def State.atInjection (s : State) (l : Bit) (t : Nat) : State :=
  (s.recordEdge l t).openWindow (s.classify l t)

theorem State.takeEdge_inj (s : State) (l : Bit) (t : Nat) :
    (s.takeEdge l t).inj = ((s.atInjection l t).inject (Config.samples s.cfg l)).inj := by
  simp [State.takeEdge, State.atInjection]

theorem State.atInjection_edge_dir (s : State) (l : Bit) (t : Nat) :
    (s.atInjection l t).edge.dir = s.classify l t := by
  have := s.takeEdge_edge l t
  simp only [State.takeEdge, State.armSample_edge, State.inject_edge] at this
  rw [State.atInjection, this]

/-- The window is open at the injection when it was open or the edge switches to Device (R149). -/
theorem State.atInjection_inj (s : State) (l : Bit) (t : Nat) :
    (s.atInjection l t).inj = { s.inj with
      writeReady := s.inj.writeReady ||
        (decide (s.edge.dir = .panel) && decide (s.classify l t = .device)) } := by
  unfold State.atInjection State.openWindow
  split
  · rename_i h
    simp only [State.recordEdge_edge] at h
    simp [h.1, h.2]
  · rename_i h
    simp only [State.recordEdge_edge, not_and'] at h
    have : (decide (s.edge.dir = .panel) && decide (s.classify l t = .device)) = false := by
      simpa using h
    simp [this]

/-! ### Inject -/

/-- The condition of Inject (R150), as propositions. -/
theorem State.injects_iff (s : State) (sampled : Bool) :
    s.injects sampled = true ↔ sampled = true ∧ s.edge.dir = .device ∧ s.inj.writeReady = true ∧
      s.inj.writePending = true ∧ s.ctl.writeEnabled = true ∧
      (0 < s.inj.bitIdx ∨ s.device.bitCount = s.cfg.injectStartBit) := by
  simp [State.injects, and_assoc]

/-- Inject either releases DOUT or drives the key's next bit. -/
theorem State.inject_cases (s : State) (sampled : Bool) :
    (s.injects sampled = false ∧ (s.inject sampled).inj = { s.inj with dout := none }) ∨
    (s.injects sampled = true ∧ (s.inject sampled).inj = s.inj.afterBit s.driveLevel) := by
  unfold State.inject
  cases h : s.injects sampled <;> simp

/-- What driving a bit does to the injector. -/
theorem Injector.afterBit_cases (j : Injector) (v : Bit) :
    (j.bitIdx + 1 ≠ 8 ∧ j.afterBit v = { j with dout := some v, bitIdx := j.bitIdx + 1 }) ∨
    (j.bitIdx + 1 = 8 ∧ j.keyIdx + 1 ≠ j.job.length ∧ j.afterBit v =
      { j with dout := some v, bitIdx := 0, writeReady := false, keyIdx := j.keyIdx + 1 }) ∨
    (j.bitIdx + 1 = 8 ∧ j.keyIdx + 1 = j.job.length ∧ j.afterBit v =
      { writePending := false, job := [], keyIdx := 0, bitIdx := 0, writeReady := false,
        dout := some v }) := by
  unfold Injector.afterBit
  by_cases h1 : j.bitIdx + 1 = 8
  · by_cases h2 : j.keyIdx + 1 = j.job.length
    · simp [h1, h2]
    · simp [h1, h2]
  · simp [h1]

/-! ### SAMPLE and Append -/

/-- Everything a SAMPLE can do. -/
theorem execSample_cases {b : Bit} {s s' : State} (h : execSample b s = .next s') :
    s.Live ∧ s.samp.pending = true ∧ s' = s.takeSample b := by
  obtain ⟨hl, h⟩ := State.whenEnabled_eq_next h
  cases hp : s.samp.pending
  · simp [hp] at h
  · exact ⟨hl, rfl, by simpa [hp] using h.symm⟩

/-- What an appended bit leaves, field by field. -/
theorem State.append_eq (s : State) (d : Dir) (b : Bit) :
    s.append d b = { s with
      panel := if d = .panel then s.panel.append s.cfg b else s.panel
      device := if d = .device then s.device.append s.cfg b else s.device
      flags := if (s.framer d).overflows s.cfg then
        { s.flags with dataOverflow := true } else s.flags } := by
  unfold State.append
  cases d
  · cases ho : s.panel.overflows s.cfg <;> simp [State.framer, State.setFramer, State.record, ho]
  · cases ho : s.device.overflows s.cfg <;> simp [State.framer, State.setFramer, State.record, ho]

/-- What a SAMPLE that is taken leaves, field by field. -/
theorem State.takeSample_eq (s : State) (b : Bit) :
    s.takeSample b = { s with
      samp := { s.samp with pending := false }
      edge := { s.edge with tLastEvent := some s.samp.due }
      panel := if s.samp.dir = .panel then s.panel.append s.cfg b else s.panel
      device := if s.samp.dir = .device then s.device.append s.cfg b else s.device
      flags := if (s.framer s.samp.dir).overflows s.cfg then
        { s.flags with dataOverflow := true } else s.flags } := by
  simp only [State.takeSample, State.append_eq, State.stampEvent]
  cases hd : s.samp.dir <;> rfl

/-- The framer after a bit: counted and discarded, counted and truncated, or counted and placed. -/
theorem Framer.append_cases (f : Framer) (c : Config) (b : Bit) :
    (f.trunc = true ∧ f.append c b = f.count) ∨
    (f.trunc = false ∧ f.byteCount = c.maxFrameBytes ∧
      f.append c b = { f.count with trunc := true }) ∨
    (f.trunc = false ∧ f.byteCount ≠ c.maxFrameBytes ∧
      f.append c b = f.count.place c.bitOrder b) := by
  unfold Framer.append
  cases f.trunc
  · by_cases h : f.byteCount = c.maxFrameBytes <;> simp [h]
  · simp

/-- What placing a bit does to the framer. -/
theorem Framer.place_eq (f : Framer) (order : BitOrder) (b : Bit) :
    f.place order b = { f with
      buf := f.buf.set f.byteCount
        (placeBit order (if f.bitInByte = 0 then 0#8 else f.buf.getD f.byteCount 0#8) f.bitInByte b)
      byteCount := if f.bitInByte + 1 = byteWidth f.byteCount then f.byteCount + 1 else f.byteCount
      bitInByte := if f.bitInByte + 1 = byteWidth f.byteCount then 0 else f.bitInByte + 1 } := by
  unfold Framer.place
  by_cases h : f.bitInByte + 1 = byteWidth f.byteCount <;> simp [h]

/-! ### TICK -/

/-- Everything a TICK can do: it is ignored, it raises TimeReversal, or it is taken. -/
theorem execTick_cases {t : Nat} {s s' : State} (h : execTick t s = .next s') :
    s.Live ∧
    ((s.ctl.bound = false ∧ s' = s) ∨
     (s.ctl.bound = true ∧ s.sampleDueBy t = false ∧
      ((laterThan s.edge.tLastEvent t = true ∧ s' = { s with fault := some .timeReversal }) ∨
       (laterThan s.edge.tLastEvent t = false ∧ s' = s.takeTick t)))) := by
  obtain ⟨hl, h⟩ := State.whenEnabled_eq_next h
  refine ⟨hl, ?_⟩
  cases hb : s.ctl.bound
  · exact .inl ⟨rfl, by simpa [hb] using h.symm⟩
  · refine .inr ⟨rfl, ?_⟩
    cases hd : s.sampleDueBy t
    · refine ⟨rfl, ?_⟩
      cases hr : laterThan s.edge.tLastEvent t
      · exact .inr ⟨rfl, by simpa [hb, hd, hr] using h.symm⟩
      · exact .inl ⟨rfl, by simpa [hb, hd, hr, State.raise] using h.symm⟩
    · simp [hb, hd] at h

/-- When a TICK is taken. -/
theorem execTick_taken {t : Nat} {s : State} (hl : s.Live) (hb : s.ctl.bound = true)
    (hd : s.sampleDueBy t = false) (hr : laterThan s.edge.tLastEvent t = false) :
    execTick t s = .next (s.takeTick t) := by
  rw [execTick, State.whenEnabled_of_live hl]
  simp [hb, hd, hr]

theorem State.frameEnds_iff (s : State) (t : Nat) :
    s.frameEnds t = true ↔
      (∃ e, s.edge.tLastEdge = some e ∧ e + s.cfg.idleThreshold < t) ∧
      (0 < s.panel.bitCount ∨ 0 < s.device.bitCount) := by
  simp [State.frameEnds, elapsedOver_iff]

/-- A taken TICK stamps its time, and hands off when the frame ends. -/
theorem State.takeTick_cases (s : State) (t : Nat) :
    (s.frameEnds t = false ∧ s.takeTick t = s.stampEvent t) ∨
    (s.frameEnds t = true ∧ s.takeTick t = (s.stampEvent t).handOff) := by
  have : (s.stampEvent t).frameEnds t = s.frameEnds t := rfl
  unfold State.takeTick
  rw [this]
  cases s.frameEnds t <;> simp

/-- Appending a slot to the FIFO: queued in the next free place, or dropped with the flag set. -/
theorem State.fifoAppend_eq (s : State) (x : Slot) :
    s.fifoAppend x = { s with
      queue := if s.queue.count < s.cfg.queueCapacity then
          { s.queue with
            fifo := s.queue.fifo.set ((s.queue.head + s.queue.count) % s.cfg.queueCapacity) x
            count := s.queue.count + 1 }
        else s.queue
      flags := if s.queue.count < s.cfg.queueCapacity then s.flags
        else { s.flags with bufferOverflow := true } } := by
  unfold State.fifoAppend
  split <;> simp [State.memWrite, State.record]

/-- What a hand-off leaves, field by field (R112 to R117). -/
theorem State.handOff_eq (s : State) :
    s.handOff = { s with
      queue := if 0 < s.panel.bitCount ∧ s.queue.count < s.cfg.queueCapacity then
          { s.queue with
            fifo := s.queue.fifo.set ((s.queue.head + s.queue.count) % s.cfg.queueCapacity)
              s.panel.slot
            count := s.queue.count + 1 }
        else s.queue
      flags := if 0 < s.panel.bitCount ∧ ¬s.queue.count < s.cfg.queueCapacity then
          { s.flags with bufferOverflow := true } else s.flags
      latch := if 0 < s.device.bitCount then { slot := s.device.slot, full := true } else s.latch
      panel := Framer.empty s.cfg
      device := Framer.empty s.cfg
      edge := { s.edge with dir := .panel, tLastRise := none }
      inj := { s.inj with writeReady := false, bitIdx := 0, dout := none } } := by
  unfold State.handOff State.storePanel State.storeDevice
  by_cases h1 : 0 < s.panel.bitCount <;> by_cases h2 : 0 < s.device.bitCount <;>
    by_cases h3 : s.queue.count < s.cfg.queueCapacity <;>
    simp [h1, h2, h3, State.fifoAppend_eq, State.latchDevice, State.memWrite, State.resetCapture]

/-! ### The consumer's operations -/

/-- Everything a POP_PANEL can do. -/
theorem execPopPanel_cases {s s' : State} (h : execPopPanel s = .next s') :
    s.Live ∧
    (((s.ctl.bound = false ∨ s.queue.count = 0) ∧ s' = { s with result := some .none }) ∨
     (s.ctl.bound = true ∧ 0 < s.queue.count ∧
      s' = { s.takePanel with
        result := some (verdict (validate s.cfg (s.memRead .fifo s.queue.head))) })) := by
  obtain ⟨hl, h⟩ := State.whenEnabled_eq_next h
  refine ⟨hl, ?_⟩
  cases hb : s.ctl.bound
  · exact .inl ⟨.inl rfl, by simpa [hb, State.answer] using h.symm⟩
  · by_cases hc : s.queue.count = 0
    · exact .inl ⟨.inr hc, by simpa [hb, hc, State.answer] using h.symm⟩
    · exact .inr ⟨rfl, Nat.pos_of_ne_zero hc, by simpa [hb, hc, State.answer] using h.symm⟩

/-- Everything a POP_DEVICE can do. -/
theorem execPopDevice_cases {s s' : State} (h : execPopDevice s = .next s') :
    s.Live ∧
    (((s.ctl.bound = false ∨ s.latch.full = false) ∧ s' = { s with result := some .none }) ∨
     (s.ctl.bound = true ∧ s.latch.full = true ∧
      s' = { s.takeDevice with result := some (verdict (deviceValid s.cfg s.latch.slot)) })) := by
  obtain ⟨hl, h⟩ := State.whenEnabled_eq_next h
  refine ⟨hl, ?_⟩
  cases hb : s.ctl.bound
  · exact .inl ⟨.inl rfl, by simpa [hb, State.answer] using h.symm⟩
  · cases hc : s.latch.full
    · exact .inl ⟨.inr rfl, by simpa [hb, hc, State.answer] using h.symm⟩
    · exact .inr ⟨rfl, rfl, by simpa [hb, hc, State.answer, State.memRead] using h.symm⟩

theorem State.stageRejected_iff (s : State) (ks : List Byte) :
    s.stageRejected ks = true ↔ s.ctl.bound = false ∨ s.ctl.writeEnabled = false ∨
      s.inj.writePending = true ∨ ks.length = 0 ∨ s.cfg.maxJobKeys < ks.length := by
  simp [State.stageRejected, or_assoc]

/-- Everything a staging can do. -/
theorem State.stage_cases {ks : List Byte} {s s' : State} (h : s.stage ks = .next s') :
    s.Live ∧
    ((s.stageRejected ks = true ∧ s' = { s with result := some .reject }) ∨
     (s.stageRejected ks = false ∧ s' = { s.withJob ks with result := some .accept })) := by
  obtain ⟨hl, h⟩ := State.whenEnabled_eq_next h
  refine ⟨hl, ?_⟩
  cases hr : s.stageRejected ks
  · exact .inr ⟨rfl, by simpa [hr, State.answer] using h.symm⟩
  · exact .inl ⟨rfl, by simpa [hr, State.answer] using h.symm⟩

/-- Everything a CLR_DOVF can do. -/
theorem execClrDovf_cases {s s' : State} (h : execClrDovf s = .next s') :
    s.Live ∧ s' = s.clearDataOverflow := by
  obtain ⟨hl, h⟩ := State.whenEnabled_eq_next h
  exact ⟨hl, by simpa using h.symm⟩

/-- Everything a CLR_BOVF can do. -/
theorem execClrBovf_cases {s s' : State} (h : execClrBovf s = .next s') :
    s.Live ∧ s' = s.clearBufferOverflow := by
  obtain ⟨hl, h⟩ := State.whenEnabled_eq_next h
  exact ⟨hl, by simpa using h.symm⟩

/-- Everything an INIT can do. -/
theorem execInit_cases {w : Bit} {s s' : State} (h : execInit w s = .next s') :
    s.Live ∧ s' = s.afterInit w := by
  obtain ⟨hl, h⟩ := State.whenEnabled_eq_next h
  exact ⟨hl, by simpa using h.symm⟩

end Sys2Proof.Machine
end

