-- ==== Sys2Proof/Laws/PerInstr.lean ====
section
/-! SUPPORT. Statements for all operations, made operation by operation. -/

namespace Sys2Proof.Laws

/-- The encoding of an operation begins with an operation word, and that word is not reserved (R77,
R80). -/
def EncodesToAWord.Statement (i : Instr) : Prop :=
  ∃ w ds, encode i = .byte w :: ds ∧ (opcodeOf w).isSome = true

theorem EncodesToAWord.init (w : Bit) : EncodesToAWord.Statement (.init w) :=
  ⟨_, _, rfl, by cases w <;> decide⟩

theorem EncodesToAWord.edge (l : Bit) (t : Nat) : EncodesToAWord.Statement (.edge l t) :=
  ⟨_, _, rfl, by cases l <;> decide⟩

theorem EncodesToAWord.sample (b : Bit) : EncodesToAWord.Statement (.sample b) :=
  ⟨_, _, rfl, by cases b <;> decide⟩

theorem EncodesToAWord.tick (t : Nat) : EncodesToAWord.Statement (.tick t) :=
  ⟨_, _, rfl, by decide⟩

theorem EncodesToAWord.popPanel : EncodesToAWord.Statement .popPanel := ⟨_, _, rfl, by decide⟩

theorem EncodesToAWord.popDevice : EncodesToAWord.Statement .popDevice := ⟨_, _, rfl, by decide⟩

theorem EncodesToAWord.clrDovf : EncodesToAWord.Statement .clrDovf := ⟨_, _, rfl, by decide⟩

theorem EncodesToAWord.clrBovf : EncodesToAWord.Statement .clrBovf := ⟨_, _, rfl, by decide⟩

theorem EncodesToAWord.stageKey (k : Byte) : EncodesToAWord.Statement (.stageKey k) :=
  ⟨_, _, rfl, by decide⟩

theorem EncodesToAWord.stageSeq (ks : List Byte) : EncodesToAWord.Statement (.stageSeq ks) :=
  ⟨_, _, rfl, by decide⟩

end Sys2Proof.Laws
end

