-- ==== Sys2Proof/Laws/Step.lean ====
section
/-! SUPPORT. What a step and a run of the machine answer, by the outcome of the first step. -/

namespace Sys2Proof.Machine

theorem step_eq_next {s s' : State} (h : Sys2Proof.Machine.step s = .next s') :
    s.cfg.wf = true ∧ ∃ i rest, decode s.input = .ok (i, rest) ∧
      exec i { s with input := rest } = .next s' := by
  unfold Sys2Proof.Machine.step State.fetch at h
  cases hw : s.cfg.wf
  · simp [hw] at h
  · cases hd : decode s.input with
    | error e => cases e <;> simp [hw, hd, decodeStop] at h
    | ok r => exact ⟨rfl, r.1, r.2, rfl, by simpa [hw, hd] using h⟩

/-- The gate of an operation is open in any state from which it has a next state. -/
theorem exec_next_live {i : Instr} {s s' : State} (h : exec i s = .next s') : s.Live := by
  cases i <;> exact (State.whenEnabled_eq_next h).1

/-- No operation of an ill-formed configuration has a meaning (R8). -/
theorem exec_of_illFormed (i : Instr) {s : State} (h : s.cfg.wf = false) :
    exec i s = .refused .illFormedConfiguration := by
  cases i <;> exact State.whenEnabled_illFormed h _

theorem run_succ (M : Host.Core) (n : Nat) (s : M.State) :
    (∀ s', M.step s = .next s' → M.run (n + 1) s = M.run n s') ∧
    (∀ r, M.step s = .fault r → M.run (n + 1) s = .fault r) ∧
    (∀ r, M.step s = .refused r → M.run (n + 1) s = .refused r) := by
  refine ⟨fun s' h => ?_, fun r h => ?_, fun r h => ?_⟩ <;> rw [Host.Core.run, h]

theorem run_succ_of_next {s s' : State} (n : Nat) (h : Sys2Proof.Machine.step s = .next s') :
    Host.Core.run Sys2Proof.core (n + 1) s = Host.Core.run Sys2Proof.core n s' :=
  (run_succ Sys2Proof.core n s).1 s' h

theorem run_succ_of_fault {s : State} {r : Fault} (n : Nat)
    (h : Sys2Proof.Machine.step s = .fault r) :
    Host.Core.run Sys2Proof.core (n + 1) s = .fault r :=
  (run_succ Sys2Proof.core n s).2.1 r h

theorem run_succ_of_refused {s : State} {r : Refusal} (n : Nat)
    (h : Sys2Proof.Machine.step s = .refused r) :
    Host.Core.run Sys2Proof.core (n + 1) s = .refused r :=
  (run_succ Sys2Proof.core n s).2.2 r h

theorem runOps_cons_of_next {i : Instr} {is : List Instr} {s s' : State}
    (h : exec i s = .next s') : runOps (i :: is) s = runOps is s' := by
  simp [runOps, h]

/-- A run of two sequences, one after the other. -/
theorem runOps_append {xs : List Instr} (ys : List Instr) {s s' : State}
    (h : runOps xs s = .next s') : runOps (xs ++ ys) s = runOps ys s' := by
  induction xs generalizing s with
  | nil => cases h; rfl
  | cons x xs ih =>
    cases hx : exec x s with
    | next t =>
      rw [List.cons_append, runOps_cons_of_next hx]
      exact ih (by rwa [runOps_cons_of_next hx] at h)
    | fault r => simp [runOps, hx] at h
    | refused r => simp [runOps, hx] at h

end Sys2Proof.Machine
end

