-- ==== Sys2Proof/Tests/Slice0.lean ====
section
/-! SUPPORT. The model's own tests: well-formedness, decoding, one-step checks whose expected values are
those of spec/95_test_vectors.md (named V-… in the comments), and for every statement with hypotheses a
named state that meets them. -/

namespace Sys2Proof.Tests

open Sys2Proof Sys2Proof.Machine

/-! ### Well-formedness (R8, R78) -/

/-- RC with one change. -/
def rcWith (f : Config → Config) : Bool := (f Config.rc).wf

theorem test_rc_is_wellFormed : Config.rc.wf = true := by decide
theorem test_wf_refuses_two_bytes : rcWith (fun c => { c with maxFrameBytes := 2 }) = false := by
  decide
theorem test_wf_refuses_8193_bytes : rcWith (fun c => { c with maxFrameBytes := 8193 }) = false := by
  decide
theorem test_wf_bounds_of_maxFrameBytes : rcWith (fun c => { c with maxFrameBytes := 3 }) = true ∧
    rcWith (fun c => { c with maxFrameBytes := 8192 }) = true := by decide
theorem test_wf_refuses_no_queue : rcWith (fun c => { c with queueCapacity := 0 }) = false := by
  decide
theorem test_wf_refuses_no_sampleOffset : rcWith (fun c => { c with sampleOffset := 0 }) = false := by
  decide
theorem test_wf_refuses_sampleOffset_at_idle :
    rcWith (fun c => { c with sampleOffset := 500 }) = false := by decide
theorem test_wf_refuses_longHigh_at_idle :
    rcWith (fun c => { c with longHighThreshold := 500 }) = false := by decide
theorem test_wf_refuses_no_period : rcWith (fun c => { c with timerPeriod := 0 }) = false := by decide
theorem test_wf_refuses_no_sampled_edge :
    rcWith (fun c => { c with sampleOnRising := false, sampleOnFalling := false }) = false := by decide
theorem test_wf_refuses_no_keys : rcWith (fun c => { c with maxJobKeys := 0 }) = false := by decide
theorem test_wf_refuses_minValidBytes_2 : rcWith (fun c => { c with minValidBytes := 2 }) = false := by
  decide
theorem test_wf_refuses_256_keys : (Instr.stageSeq (List.replicate 256 0#8)).wf = false := by
  rw [Instr.wf, List.length_replicate]; decide

/-! ### Decoding: words written out from the Word column of R77 (V-ENC-1 to V-ENC-15) -/

/-- The operation decoded from items, or the reason why there is none. -/
def decoded (ds : List Datum) : Option Instr × Option DecodeError :=
  match decode ds with
  | .ok r => (some r.1, none)
  | .error e => (none, some e)

theorem test_decode_init : decoded [.byte 0b00010000#8] = (some (.init false), none) ∧
    decoded [.byte 0b00010001#8] = (some (.init true), none) := by decide
theorem test_decode_edge :
    decoded [.byte 0b00100001#8, .time 1000] = (some (.edge true 1000), none) ∧
    decoded [.byte 0b00100000#8, .time 1050] = (some (.edge false 1050), none) := by decide
theorem test_decode_sample : decoded [.byte 0b00110000#8] = (some (.sample false), none) ∧
    decoded [.byte 0b00110001#8] = (some (.sample true), none) := by decide
theorem test_decode_tick :
    decoded [.byte 0b01000000#8, .time 2400] = (some (.tick 2400), none) := by decide
theorem test_decode_popPanel : decoded [.byte 0b01010000#8] = (some .popPanel, none) := by decide
theorem test_decode_popDevice : decoded [.byte 0b01010001#8] = (some .popDevice, none) := by decide
theorem test_decode_clrDovf : decoded [.byte 0b01100001#8] = (some .clrDovf, none) := by decide
theorem test_decode_clrBovf : decoded [.byte 0b01100010#8] = (some .clrBovf, none) := by decide
theorem test_decode_stageKey :
    decoded [.byte 0b01110000#8, .byte 0xA5#8] = (some (.stageKey 0xA5#8), none) := by decide
theorem test_decode_stageSeq :
    decoded [.byte 0b01110001#8, .byte 2#8, .byte 0xA5#8, .byte 0x3C#8] =
      (some (.stageSeq [0xA5#8, 0x3C#8]), none) ∧
    decoded [.byte 0b01110001#8, .byte 0#8] = (some (.stageSeq []), none) := by decide

/-- The words of V-ENC-12 to V-ENC-15. -/
theorem test_decode_refuses_reserved_words :
    ∀ w ∈ [0x00#8, 0x0F#8, 0x12#8, 0x1F#8, 0x22#8, 0x32#8, 0x41#8, 0x4F#8, 0x52#8, 0x60#8, 0x63#8,
      0x6F#8, 0x72#8, 0x80#8, 0xFF#8],
      decoded [.byte w] = (none, some (.reservedOperation w)) := by decide
theorem test_decode_refuses_other_items :
    decoded [] = (none, some .noOperation) ∧ decoded [.time 5] = (none, some .notAnOperationWord) ∧
    decoded [.byte 0x40#8, .byte 1#8] = (none, some (.missingOperand 0x40#8)) ∧
    decoded [.byte 0x71#8, .byte 2#8, .byte 1#8] = (none, some (.missingOperand 0x71#8)) := by decide

theorem test_opcode_rows_do_not_overlap :
    opcodeTable.Pairwise fun r r' => r.pattern &&& (r.mask &&& r'.mask) ≠
      r'.pattern &&& (r.mask &&& r'.mask) := by decide

/-- 0x21 with t = 1000 = 0x3E8 above it, and 0x71 0x02 0xA5 0x3C with its first word lowest. -/
theorem test_decodeTableWord_operands :
    decodeTableWord 24 0x03E821 = some (.edge true 1000) ∧
    decodeTableWord 32 0x3CA50271 = some (.stageSeq [0xA5#8, 0x3C#8]) ∧
    decodeTableWord 8 0x12 = none := by decide

/-! ### States -/

/-- The state just after INIT, in RC. -/
def started (w : Bit) : State := State.reset.afterInit w

/-- `started` in a configuration RC changed by `f`. -/
def startedIn (f : Config → Config) (w : Bit) : State := (State.resetWith (f Config.rc)).afterInit w

/-- After `EDGE 1, 1000; SAMPLE 0`. -/
def highSince1000 (s : State) : State :=
  { s with
    edge := { clk := some true, tLastEdge := some 1000, tLastRise := some 1000,
              tLastEvent := some 1010, dir := .panel }
    panel := { s.panel with bitInByte := 1, bitCount := 1 } }

/-- After `EDGE 1, 1000`: a sample is pending. -/
def samplePending (s : State) : State :=
  { s with
    edge := { clk := some true, tLastEdge := some 1000, tLastRise := some 1000,
              tLastEvent := some 1000, dir := .panel }
    samp := { pending := true, due := 1010, dir := .panel } }

/-- P1's capture after its 17 samples. -/
def threeBytes : Framer :=
  { buf := [0x05#8, 0x01#8, 0x06#8, 0x00#8], byteCount := 3, bitInByte := 0, bitCount := 17,
    trunc := false }

/-- A full buffer, 25 bits. -/
def fourBytes : Framer :=
  { buf := [0x05#8, 0x01#8, 0x06#8, 0x0C#8], byteCount := 4, bitInByte := 0, bitCount := 25,
    trunc := false }

/-- After P1's 17 edges and samples. -/
def frameCaptured (s : State) : State :=
  { s with
    edge := { clk := some true, tLastEdge := some 1800, tLastRise := some 1800,
              tLastEvent := some 1810, dir := .panel }
    panel := threeBytes }

/-- The slot of P1's frame. -/
def goodSlot : Slot := ⟨[0x05#8, 0x01#8, 0x06#8, 0x00#8], 3, 17⟩

/-- The frame of V-VAL-2: its checksum byte is wrong. -/
def badSlot : Slot := ⟨[0x05#8, 0x01#8, 0x07#8, 0x00#8], 3, 17⟩

/-- The device slot of V-POP-7. -/
def deviceSlot : Slot := ⟨[0xA5#8, 0x01#8, 0x00#8, 0x00#8], 2, 9⟩

/-- V-POP-3's start. -/
def oneQueued : State :=
  { started false with
    queue := { fifo := [Slot.empty Config.rc, goodSlot], head := 1, count := 1 } }

/-- In the device window, with a job staged and `n` bits of its key `j` driven. -/
def inWindow (job : List Byte) (j n : Nat) : State :=
  { started true with
    edge := { clk := some true, tLastEdge := some 2000, tLastRise := some 2000,
              tLastEvent := some 2010, dir := .device }
    inj := { writePending := true, job := job, keyIdx := j, bitIdx := n, writeReady := true,
             dout := some true } }

/-- One field of the next state of an operation. -/
def got {α : Type} (o : Out) (f : State → α) : Option α :=
  match o with
  | .next s => some (f s)
  | .fault _ => none
  | .refused _ => none

/-- The fault of an operation that has no step. -/
def noStep (o : Out) : Option Fault :=
  match o with
  | .next _ => none
  | .fault r => some r
  | .refused _ => none

/-! ### One step of each operation -/

/-- V-INIT-1 and V-INIT-2, on the state of V-POP-3. -/
theorem test_init : got (exec (.init true) oneQueued) (fun s => (s.ctl, s.queue.count, s.edge.clk)) =
    some ({ bound := true, writeEnabled := true }, 0, none) := by decide
/-- V-INIT-4. -/
theorem test_init_after_a_fault :
    noStep (exec (.init false) { started false with fault := some .sampleOverrun }) =
      some .modelFaulted := by decide
/-- V-EDGE-4: high for Lh + 1. -/
theorem test_edge_switches_to_device :
    got (exec (.edge false 1101) (highSince1000 (started false)))
      (fun s => (s.edge.dir, s.inj.writeReady, s.samp)) =
    some (.device, true, { pending := true, due := 1111, dir := .device }) := by decide
/-- V-EDGE-11: the first of three faults. -/
theorem test_edge_raises_timeReversal_first :
    got (exec (.edge true 900) (samplePending (started false))) (fun s => s.fault) =
      some (some .timeReversal) := by decide
/-- V-APP-1. -/
theorem test_sample_places_the_first_bit :
    got (exec (.sample true) (samplePending (started false)))
      (fun s => (s.panel, s.samp.pending, s.edge.tLastEvent)) =
    some ({ buf := [0x01#8, 0x00#8, 0x00#8, 0x00#8], byteCount := 0, bitInByte := 1, bitCount := 1,
            trunc := false }, false, some 1010) := by decide
/-- V-APP-6: the 26th bit. -/
theorem test_sample_of_a_full_buffer :
    got (exec (.sample true) { samplePending (started false) with panel := fourBytes })
      (fun s => (s.panel, s.flags.dataOverflow)) =
    some ({ fourBytes with bitCount := 26, trunc := true }, true) := by decide
/-- V-TICK-2: exactly Ti is not idle. -/
theorem test_tick_at_the_threshold :
    got (exec (.tick 2300) (frameCaptured (started false))) (fun s => (s.queue.count, s.panel)) =
      some (0, threeBytes) := by decide
/-- V-TICK-3. -/
theorem test_tick_hands_off :
    got (exec (.tick 2301) (frameCaptured (started false)))
      (fun s => (s.queue, s.panel.bitCount, s.edge.tLastEdge)) =
    some ({ fifo := [goodSlot, Slot.empty Config.rc], head := 0, count := 1 }, 0, some 1800) := by
  decide
/-- V-POP-3. -/
theorem test_popPanel_takes_the_head :
    got (exec .popPanel oneQueued) (fun s => (s.result, s.queue, s.out.panelOut)) =
      some (some .accept, { fifo := [Slot.empty Config.rc, Slot.empty Config.rc], head := 0, count := 0 },
        goodSlot) := by decide
/-- V-VAL-2 in a POP_PANEL. -/
theorem test_popPanel_rejects_a_wrong_sum :
    got (exec .popPanel { oneQueued with queue := { fifo := [badSlot, badSlot], head := 0, count := 2 } })
      (fun s => (s.result, s.out.panelOutValid, s.queue.count)) = some (some .reject, false, 1) := by
  decide
/-- V-POP-7. -/
theorem test_popDevice_accepts :
    got (exec .popDevice { started false with latch := { slot := deviceSlot, full := true } })
      (fun s => (s.result, s.out.deviceOut, s.latch.full)) = some (some .accept, deviceSlot, false) := by
  decide
/-- V-POP-6. -/
theorem test_popDevice_rejects_a_short_frame :
    got (exec .popDevice
        { started false with latch := { slot := ⟨[0x14#8, 0#8, 0#8, 0#8], 0, 5⟩, full := true } })
      (fun s => (s.result, s.out.deviceOutValid)) = some (some .reject, false) := by decide
/-- V-POP-8. -/
theorem test_clrDovf_leaves_the_other_flag :
    got (exec .clrDovf { started false with flags := { dataOverflow := true, bufferOverflow := true } })
      (fun s => s.flags) = some { dataOverflow := false, bufferOverflow := true } := by decide
/-- V-POP-9. -/
theorem test_clrBovf_leaves_the_other_flag :
    got (exec .clrBovf { started false with flags := { dataOverflow := true, bufferOverflow := true } })
      (fun s => s.flags) = some { dataOverflow := true, bufferOverflow := false } := by decide
/-- R146's example. -/
theorem test_stageKey_accepts :
    got (exec (.stageKey 0xA5#8) (started true)) (fun s => (s.result, s.inj.job, s.inj.writePending)) =
      some (some .accept, [0xA5#8], true) := by decide
/-- V-WR-2. -/
theorem test_stageKey_with_writes_disabled :
    got (exec (.stageKey 0x11#8) (started false)) (fun s => s.result) = some (some .reject) := by decide
/-- V-WR-3 and V-WR-4, and the longest list K takes. -/
theorem test_stageSeq_lengths :
    got (exec (.stageSeq []) (started true)) (fun s => s.result) = some (some .reject) ∧
    got (exec (.stageSeq [1#8, 2#8, 3#8, 4#8, 5#8]) (started true)) (fun s => s.result) =
      some (some .reject) ∧
    got (exec (.stageSeq [1#8, 2#8, 3#8, 4#8]) (started true)) (fun s => s.result) =
      some (some .accept) := by decide
/-- V-WR-10, and R150's example without OutputInvert. -/
theorem test_inject_first_bit :
    got (exec (.edge false 1950)
        { frameCaptured (startedIn (fun c => { c with outputInvert := true }) true) with
          inj := (inWindow [0xA5#8] 0 0).inj }) (fun s => s.inj.dout) = some (some false) ∧
    got (exec (.edge false 1950)
        { frameCaptured (started true) with inj := (inWindow [0xA5#8] 0 0).inj })
      (fun s => (s.inj.dout, s.inj.bitIdx)) = some (some true, 1) := by decide

/-! ### The validator (V-VAL-1, V-VAL-3 to V-VAL-9) -/

theorem test_validate_sums :
    validate Config.rc goodSlot = true ∧
    validate Config.rc ⟨[0xFF#8, 0x01#8, 0x00#8, 0x00#8], 3, 17⟩ = true ∧
    validate Config.rc ⟨[0x05#8, 0x01#8, 0x05#8, 0x00#8], 3, 17⟩ = false ∧
    validate { Config.rc with checksumSkipStop := true } ⟨[0x05#8, 0x01#8, 0x05#8, 0x00#8], 3, 17⟩ =
      true ∧
    validate { Config.rc with checksumSkipStop := true } goodSlot = false := by decide
theorem test_validate_boundaries :
    validate Config.rc ⟨[0x05#8, 0x01#8, 0x06#8, 0x0C#8], 4, 25⟩ = true ∧
    validate Config.rc ⟨[0x05#8, 0x01#8, 0x06#8, 0x0C#8], 4, 26⟩ = false ∧
    validate Config.rc ⟨[0x05#8, 0x01#8, 0x05#8, 0x00#8], 2, 12⟩ = false := by decide

/-! ### Traces (V-ENC-16 to V-ENC-21, R82) -/

/-- The bits, or nothing where the assembler refuses. -/
def bitsOf (r : Except Refusal (List Bit)) : Option (List Bit) :=
  match r with
  | .ok bs => some bs
  | .error _ => none

/-- The operations, or nothing where the assembler refuses. -/
def opsOf (r : Except Refusal (List Instr)) : Option (List Instr) :=
  match r with
  | .ok is => some is
  | .error _ => none

theorem test_frameBits_msbFirst : bitsOf (frameBits Config.rc [0x05#8, 0x01#8, 0x06#8]) =
    some [false, false, false, false, false, true, false, true, true,
      false, false, false, false, false, true, true, false] := by decide
theorem test_frameBits_lsbFirst :
    bitsOf (frameBits { Config.rc with bitOrder := .lsbFirst } [0x05#8, 0x01#8, 0x06#8]) =
    some [true, false, true, false, false, false, false, false, true,
      false, true, true, false, false, false, false, false] := by decide
theorem test_frameBits_refuses_byte_1_above_1 :
    bitsOf (frameBits Config.rc [0x05#8, 0x02#8]) = none := by decide
theorem test_stored : (List.range 5).map stored = [0, 8, 9, 17, 25] := by decide
theorem test_clockBits_refusals :
    opsOf (clockBits { Config.rc with sampleOnRising := false } true 1000 50 [true]) = none ∧
    opsOf (clockBits Config.rc true 1000 10 [true]) = none := by decide
theorem test_trace_line_with_a_comment :
    opsOf (assembleLine Config.rc "EDGE 1, 0x3E8 ; 0x21 t=1000".toList) =
      some [.edge true 1000] := by decide
theorem test_trace_line_of_keys :
    opsOf (assembleLine Config.rc "STAGE_SEQ [0xA5, 60]".toList) =
      some [.stageSeq [0xA5#8, 0x3C#8]] := by decide
theorem test_trace_line_of_clockBits :
    opsOf (assembleLine Config.rc "CLOCKBITS 1, 1000, 50, [0] ++ [1]".toList) =
      some [.edge true 1000, .sample false, .edge false 1050, .sample true] := by decide
theorem test_trace_refuses_an_unknown_mnemonic :
    opsOf (assembleLine Config.rc "HALT".toList) = none := by decide

/-! ### A state that meets the hypotheses of each statement

Each `witness_<Name>` meets the hypotheses of `Obligations.<Name>` together; where a statement has
several clauses, each clause is met, at the boundary values of its range. -/

theorem live_started (w : Bit) : (started w).Live := by cases w <;> exact ⟨by decide, rfl⟩

/-- Past the end of a buffer a byte reads as 0x00. -/
theorem getD_past {xs : List Byte} {i : Nat} (h : xs.length ≤ i) : xs.getD i 0#8 = 0#8 := by
  simp [List.getD, List.getElem?_eq_none h]

theorem witness_DecodeOfEncodeIsTheOperation :
    (Instr.stageSeq (List.replicate 255 0#8)).wf = true := by
  rw [Instr.wf, List.length_replicate]; decide

theorem witness_EncodeOfDecodeIsTheItems :
    decode [.byte 0x71#8, .byte 1#8, .byte 0xA5#8, .byte 0x50#8] =
      .ok (.stageSeq [0xA5#8], [.byte 0x50#8]) := rfl

theorem witness_ReservedWordsAreRefused :
    (∀ w ∈ [0x00#8, 0x0F#8, 0x12#8, 0x1F#8, 0x22#8, 0x2F#8, 0x32#8, 0x3F#8, 0x41#8, 0x4F#8, 0x52#8,
      0x5F#8, 0x60#8, 0x63#8, 0x6F#8, 0x72#8, 0xFF#8],
      w ≤ 0x0F#8 ∨ (0x12#8 ≤ w ∧ w ≤ 0x1F#8) ∨ (0x22#8 ≤ w ∧ w ≤ 0x2F#8) ∨
        (0x32#8 ≤ w ∧ w ≤ 0x3F#8) ∨ (0x41#8 ≤ w ∧ w ≤ 0x4F#8) ∨ (0x52#8 ≤ w ∧ w ≤ 0x5F#8) ∨
        w = 0x60#8 ∨ (0x63#8 ≤ w ∧ w ≤ 0x6F#8) ∨ 0x72#8 ≤ w) ∧
    (State.reset.cfg.wf = true ∧ { State.reset with input := [.byte 0x72#8] }.input = [.byte 0x72#8]) ∧
    ((started true).cfg.maxJobKeys < [1#8, 2#8, 3#8, 4#8, 5#8].length ∧
      [1#8, 2#8, 3#8, 4#8, 5#8].length ≤ 255) ∧ (started true).Live := by
  refine ⟨by decide, by decide, by decide, live_started true⟩

theorem witness_TheNextStepRunsAGivenWord : decodeTableWord 8 0x11 = some (.init true) := by decide

theorem witness_StepRunsTheDecodedOperation :
    decode [.byte 0x40#8, .time 7, .byte 0x50#8] = .ok (.tick 7, [.byte 0x50#8]) ∧
    (State.reset.cfg.wf = true ∧ State.reset.input = []) := ⟨rfl, by decide⟩

theorem witness_SteppingAnEncodedTraceIsItsRun :
    ∀ i ∈ [Instr.init true, Instr.edge true 1000, Instr.sample false, Instr.stageSeq [1#8]],
      i.wf = true := by decide

theorem witness_IllFormedConfigurationIsRefused :
    (State.resetWith { Config.rc with maxFrameBytes := 2 }).cfg.wf = false := by decide

theorem witness_FaultRegisterIsSticky :
    (∃ s', exec (.tick 900) (samplePending (started false)) = .next s' ∧
      s'.fault = some .timeReversal) ∧
    ({ started false with fault := some .sampleOverrun }.cfg.wf = true ∧
      { started false with fault := some .sampleOverrun }.fault ≠ none) :=
  ⟨⟨_, rfl, rfl⟩, by decide⟩

theorem witness_OperationsIgnoreTheInput : ∃ s', exec .popPanel oneQueued = .next s' := ⟨_, rfl⟩

theorem witness_ConfigurationIsFixed : ∃ s', exec (.init true) oneQueued = .next s' := ⟨_, rfl⟩

theorem witness_OnlyPollsAndStagingsReturn :
    (∃ s', exec .popPanel oneQueued = .next s') ∧ (∃ s', exec .popDevice oneQueued = .next s') ∧
    (∃ s', exec (.stageKey 1#8) (started true) = .next s') ∧
    (∃ s', exec (.stageSeq []) (started true) = .next s') ∧
    ∃ s', exec (.tick 2301) (frameCaptured (started false)) = .next s' :=
  ⟨⟨_, rfl⟩, ⟨_, rfl⟩, ⟨_, rfl⟩, ⟨_, rfl⟩, ⟨_, rfl⟩⟩

theorem witness_ResetTable : oneQueued.Live := ⟨by decide, rfl⟩

theorem witness_BeforeInitNothingIsCaptured :
    State.reset.Live ∧ State.reset.ctl.bound = false ∧ State.reset.samp.pending = false ∧
    State.reset.flags = { dataOverflow := false, bufferOverflow := false } :=
  ⟨⟨by decide, rfl⟩, by decide⟩

/-- A fall exactly Lh after the rise, and one more than Lh after it: both are admitted edges, the first
stays Panel and the second is Device. -/
theorem witness_EdgeRecordsClassifiesAndArms :
    let s := highSince1000 (started false)
    s.Live ∧ s.ctl.bound = true ∧ s.samp.pending = false ∧
    (∀ u, s.edge.tLastEvent = some u → u ≤ 1100 ∧ u ≤ 1101) ∧ s.edge.clk ≠ some false ∧
    s.edge.tLastRise = some 1000 ∧ s.cfg.sampleOnFalling = true ∧
    ¬s.cfg.longHighThreshold < 1100 - 1000 ∧ s.cfg.longHighThreshold < 1101 - 1000 := by
  refine ⟨⟨by decide, rfl⟩, rfl, rfl, ?_, by decide⟩
  rintro u ⟨⟩
  decide

/-- An edge that takes no sample (V-EDGE-14): the other side of R93. -/
theorem witness_EdgeRecordsClassifiesAndArms_unsampled :
    let s := startedIn (fun c => { c with sampleOnRising := false }) false
    s.Live ∧ s.ctl.bound = true ∧ s.samp.pending = false ∧
    (∀ u, s.edge.tLastEvent = some u → u ≤ 1000) ∧ s.edge.clk ≠ some true ∧
    s.cfg.sampleOnRising = false := by
  refine ⟨⟨by decide, rfl⟩, rfl, rfl, ?_, by decide⟩
  rintro u ⟨⟩

/-- The four clauses: no job bit (window not open), a bit within a key, the last bit of a key that is
not the job's last, and the last bit of the job. -/
theorem witness_EdgeInjectsOrReleases :
    (let s := highSince1000 (started true)
     s.Live ∧ s.ctl.bound = true ∧ s.samp.pending = false ∧
       (∀ u, s.edge.tLastEvent = some u → u ≤ 1100) ∧ s.edge.clk ≠ some false ∧
       s.inj.writePending = false) ∧
    ∀ x ∈ [(0, 6), (0, 7), (1, 7)],
      let s := inWindow [0xA5#8, 0x3C#8] x.1 x.2
      s.Live ∧ s.ctl.bound = true ∧ s.samp.pending = false ∧
        (∀ u, s.edge.tLastEvent = some u → u ≤ 2050) ∧ s.edge.clk ≠ some false ∧
        s.edge.dir = .device ∧ s.inj.writeReady = true ∧ s.inj.writePending = true ∧
        s.inj.keyIdx < s.inj.job.length ∧ s.ctl.writeEnabled = true ∧ 0 < s.inj.bitIdx := by
  refine ⟨⟨⟨by decide, rfl⟩, rfl, rfl, ?_, by decide⟩, ?_⟩
  · rintro u ⟨⟩; decide
  · intro x hx
    fin_cases hx <;> exact ⟨⟨by decide, rfl⟩, rfl, rfl, by rintro u ⟨⟩; decide, by decide⟩

/-- V-EDGE-11, V-EDGE-12 and V-EDGE-8. -/
theorem witness_ModelFaultsAreRaisedInOrder :
    (let s := samplePending (started false)
     s.Live ∧ s.ctl.bound = true ∧ ¬(s.samp.pending = true ∧ s.samp.due ≤ 999) ∧
       ∃ u, s.edge.tLastEvent = some u ∧ 999 < u) ∧
    (let s := samplePending (started false)
     s.Live ∧ s.ctl.bound = true ∧ ¬(s.samp.pending = true ∧ s.samp.due ≤ 1009) ∧
       (¬∃ u, s.edge.tLastEvent = some u ∧ 1009 < u) ∧ s.samp.pending = true) ∧
    (let s := highSince1000 (started false)
     s.Live ∧ s.ctl.bound = true ∧ ¬(s.samp.pending = true ∧ s.samp.due ≤ 1100) ∧
       (¬∃ u, s.edge.tLastEvent = some u ∧ 1100 < u) ∧ s.samp.pending = false ∧
       s.edge.clk = some true) := by
  refine ⟨⟨⟨by decide, rfl⟩, rfl, by decide, 1000, rfl, by decide⟩,
    ⟨⟨by decide, rfl⟩, rfl, by decide, ?_, rfl⟩, ⟨⟨by decide, rfl⟩, rfl, by decide, ?_, rfl, rfl⟩⟩
  · rintro ⟨u, ⟨⟩, h⟩; omega
  · rintro ⟨u, ⟨⟩, h⟩; omega

theorem witness_SampleGoesBeforeLaterEvents :
    (samplePending (started false)).Live ∧ (samplePending (started false)).ctl.bound = true ∧
    (samplePending (started false)).samp.pending = true ∧
    (samplePending (started false)).samp.due ≤ 1010 ∧ isInit (.init true) = true ∧
    isConsumerAccess .popPanel = true := ⟨⟨by decide, rfl⟩, by decide⟩

theorem witness_DirectionSwitchesOneWayWithinAFrame :
    (∃ s', exec (.edge false 1101) (highSince1000 (started false)) = .next s' ∧
      (highSince1000 (started false)).edge.dir = .panel ∧ s'.edge.dir = .device) ∧
    ∃ s', exec (.tick 2501) { inWindow [] 0 0 with panel := threeBytes } = .next s' ∧
      { inWindow [] 0 0 with panel := threeBytes }.edge.dir = .device ∧ s'.edge.dir = .panel :=
  ⟨⟨_, rfl, rfl, rfl⟩, ⟨_, rfl, rfl, rfl⟩⟩

theorem witness_DataOutIsDrivenOnlyInTheDeviceWindow :
    ∃ s', (inWindow [0xA5#8] 0 1).ctl.bound = true ∧
      (inWindow [0xA5#8] 0 1).inj.keyIdx < (inWindow [0xA5#8] 0 1).inj.job.length ∧
      exec (.edge false 2050) (inWindow [0xA5#8] 0 1) = .next s' ∧ s'.fault = none ∧
      s'.inj.dout = some false := ⟨_, rfl, by decide, rfl, rfl, rfl⟩

/-- A job of two keys at its first key and at its last. -/
theorem witness_AKeyIsDrivenBitByBitInOrder :
    ∀ j ∈ [0, 1],
      let s := inWindow [0xA5#8, 0x3C#8] j 0
      s.edge.dir = .device ∧ s.inj.writeReady = true ∧ s.inj.writePending = true ∧
      s.inj.keyIdx < s.inj.job.length ∧ s.ctl.writeEnabled = true ∧ s.inj.bitIdx = 0 ∧
      s.device.bitCount = s.cfg.injectStartBit := by
  decide

/-- The three clauses, and both sides of the counter's saturation (V-APP-6, V-APP-7, V-APP-9). -/
theorem witness_SampleCountsAndFlagsOverflow :
    ∀ f ∈ [{ fourBytes with bitCount := 65535, trunc := true },
        { fourBytes with bitCount := 65534, trunc := true }, fourBytes, threeBytes],
      let s := { samplePending (started false) with panel := f }
      (s.cfg.wf = true ∧ s.fault = none) ∧ s.samp.pending = true ∧
        (f.trunc = true ∨ (f.trunc = false ∧ f.byteCount = s.cfg.maxFrameBytes) ∨
          (f.trunc = false ∧ f.byteCount ≠ s.cfg.maxFrameBytes)) := by decide

/-- The bit that completes a byte, the one-bit byte 1, and a bit within a byte. -/
theorem witness_SamplePlacesTheBit :
    ∀ f ∈ [{ threeBytes with byteCount := 0, bitInByte := 7 },
        { threeBytes with byteCount := 1, bitInByte := 0 },
        { threeBytes with byteCount := 3, bitInByte := 6 }],
      let s := { samplePending (started false) with panel := f }
      (s.cfg.wf = true ∧ s.fault = none) ∧ s.samp.pending = true ∧
        (s.framer s.samp.dir).trunc = false ∧
        (s.framer s.samp.dir).byteCount < s.cfg.maxFrameBytes := by decide

theorem witness_SampleNeedsAPendingSample :
    (started false).Live ∧ (started false).samp.pending = false := ⟨live_started false, rfl⟩

theorem witness_FrameBitsAssembleToTheirBytes :
    Config.rc.wf = true ∧ [0x05#8, 0x01#8, 0x06#8, 0x0C#8].length ≤ Config.rc.maxFrameBytes ∧
    ∃ bits, frameBits Config.rc [0x05#8, 0x01#8, 0x06#8, 0x0C#8] = .ok bits :=
  ⟨by decide, by decide, _, rfl⟩

theorem witness_BitsPastAFullBufferAreOnlyCounted :
    fourBytes.byteCount = Config.rc.maxFrameBytes ∧ fourBytes.bitCount ≤ Config.bitCountMax ∧
    [true] ≠ [] := by decide

/-- A framer with every bit of a full buffer, one with trailing bits, and a truncated one keep R36. -/
theorem witness_SlotMetadataTellsFramesApart :
    Config.rc.wf = true ∧ fourBytes.Inv Config.rc ∧
    Framer.Inv { threeBytes with bitInByte := 7, bitCount := 24 } Config.rc ∧
    Framer.Inv { fourBytes with bitCount := 26, trunc := true } Config.rc := by
  refine ⟨by decide, ⟨by decide, by decide, by decide, by decide, by decide, by decide,
      ⟨0, by decide, by decide⟩, ?_⟩, ⟨by decide, by decide, by decide, by decide, by decide, by decide,
      ⟨0, by decide, by decide⟩, ?_⟩, ⟨by decide, by decide, by decide, by decide, by decide, by decide,
      ⟨1, by decide, by decide⟩, ?_⟩⟩
  · rintro i (hi | ⟨rfl, -⟩)
    · exact getD_past (Nat.le_of_lt hi)
    · decide
  · rintro i (hi | ⟨-, hi⟩)
    · exact getD_past hi
    · exact absurd hi (by decide)
  · rintro i (hi | ⟨rfl, -⟩)
    · exact getD_past (Nat.le_of_lt hi)
    · decide

/-- The first idle time, Ti + 1 after the last edge, with FIFO room; and with the FIFO full. -/
theorem witness_TickHandsOff :
    (let s := frameCaptured (started false)
     s.Live ∧ s.ctl.bound = true ∧ ¬(s.samp.pending = true ∧ s.samp.due ≤ 2301) ∧
       (∀ u, s.edge.tLastEvent = some u → u ≤ 2301) ∧ s.edge.tLastEdge = some 1800 ∧
       s.cfg.idleThreshold < 2301 - 1800 ∧ 0 < s.panel.bitCount ∧
       s.queue.count < s.cfg.queueCapacity) ∧
    (let s := { frameCaptured (started false) with
        queue := { fifo := [goodSlot, badSlot], head := 1, count := 2 }, device := fourBytes }
     s.Live ∧ s.ctl.bound = true ∧ ¬(s.samp.pending = true ∧ s.samp.due ≤ 2301) ∧
       (∀ u, s.edge.tLastEvent = some u → u ≤ 2301) ∧ s.edge.tLastEdge = some 1800 ∧
       s.cfg.idleThreshold < 2301 - 1800 ∧ 0 < s.device.bitCount ∧
       ¬s.queue.count < s.cfg.queueCapacity) := by
  refine ⟨⟨⟨by decide, rfl⟩, rfl, by decide, ?_, by decide⟩,
    ⟨⟨by decide, rfl⟩, rfl, by decide, ?_, by decide⟩⟩ <;>
  · rintro u ⟨⟩
    decide

/-- Exactly Ti after the last edge; and no bit captured, long after it. -/
theorem witness_TickWithoutAHandOffStampsItsTime :
    (let s := frameCaptured (started false)
     s.Live ∧ s.ctl.bound = true ∧ ¬(s.samp.pending = true ∧ s.samp.due ≤ 2300) ∧
       (∀ u, s.edge.tLastEvent = some u → u ≤ 2300) ∧
       ∀ e, s.edge.tLastEdge = some e → 2300 - e ≤ s.cfg.idleThreshold) ∧
    (let s := { frameCaptured (started false) with panel := Framer.empty Config.rc }
     s.Live ∧ s.ctl.bound = true ∧ ¬(s.samp.pending = true ∧ s.samp.due ≤ 9000) ∧
       (∀ u, s.edge.tLastEvent = some u → u ≤ 9000) ∧
       s.panel.bitCount = 0 ∧ s.device.bitCount = 0) := by
  refine ⟨⟨⟨by decide, rfl⟩, rfl, by decide, ?_, ?_⟩, ⟨⟨by decide, rfl⟩, rfl, by decide, ?_, by decide⟩⟩ <;>
  · rintro u ⟨⟩
    decide

/-- V-TICK-5, and a tick that is too early. -/
theorem witness_TickWithASamplePendingNeverHandsOff :
    let s := samplePending (started false)
    s.ctl.bound = true ∧ s.samp.pending = true ∧ s.edge.tLastEdge = some 1000 ∧
    s.samp.due = 1000 + s.cfg.sampleOffset ∧ (∃ s', exec (.tick 1009) s = .next s') ∧
    ∃ s', exec (.tick 999) s = .next s' := ⟨rfl, rfl, rfl, rfl, ⟨_, rfl⟩, ⟨_, rfl⟩⟩

/-- Frames in both directions with room in the FIFO, a full FIFO, and one direction without a bit; and
the latest first tick, one period after the idle time. -/
theorem witness_PeriodicTicksEndTheFrameInTime :
    ∀ s ∈ [{ frameCaptured (started false) with device := fourBytes },
        { frameCaptured (started false) with
          queue := { fifo := [goodSlot, badSlot], head := 1, count := 2 } },
        { frameCaptured (started false) with panel := Framer.empty Config.rc, device := fourBytes }],
      (s.cfg.wf = true ∧ s.fault = none) ∧ s.ctl.bound = true ∧ s.samp.pending = false ∧
      s.edge.tLastEdge = some 1800 ∧ (0 < s.panel.bitCount ∨ 0 < s.device.bitCount) ∧
      s.edge.tLastEvent = some 1810 ∧ 1810 ≤ 1800 + s.cfg.idleThreshold + s.cfg.timerPeriod := by
  decide

theorem witness_PeriodicTicksEndAFrameWithASamplePending :
    let s := samplePending (started false)
    s.Live ∧ s.ctl.bound = true ∧ s.samp.pending = true ∧ s.edge.tLastEdge = some 1000 ∧
    s.samp.due = 1000 + s.cfg.sampleOffset ∧ (∀ u, s.edge.tLastEvent = some u → u ≤ 1000) ∧
    1000 ≤ 1000 + s.cfg.idleThreshold + s.cfg.timerPeriod := by
  refine ⟨⟨by decide, rfl⟩, rfl, rfl, rfl, rfl, ?_, by decide⟩
  rintro u ⟨⟩
  decide

theorem witness_PopPanelTakesTheSlotAtHead :
    State.reset.Live ∧ State.reset.ctl.bound = false ∧ (started false).Live ∧
    (started false).queue.count = 0 ∧ oneQueued.Live ∧ oneQueued.ctl.bound = true ∧
    0 < oneQueued.queue.count :=
  ⟨⟨by decide, rfl⟩, rfl, live_started false, rfl, ⟨by decide, rfl⟩, by decide⟩

theorem witness_PopDeviceTakesTheLatch :
    (started false).Live ∧ (started false).latch.full = false ∧
    (let s := { started false with latch := { slot := deviceSlot, full := true } }
     s.Live ∧ s.ctl.bound = true ∧ s.latch.full = true) :=
  ⟨live_started false, rfl, ⟨by decide, rfl⟩, by decide⟩

theorem queueInv_one : oneQueued.queue.Inv oneQueued.cfg := by
  refine ⟨by decide, by decide, by decide, ?_, ?_⟩
  · intro x hx
    simp only [oneQueued, List.mem_cons, List.not_mem_nil, or_false] at hx
    rcases hx with rfl | rfl <;> exact ⟨by decide, by decide, by decide⟩
  · intro i h1 h2
    have : i = 1 := by
      have h1' : 1 ≤ i := h1
      have h2' : i < 2 := h2
      omega
    subst this
    decide

/-- The three ways the queue changes. -/
theorem witness_FramesAreDeliveredInHandOffOrder :
    oneQueued.queue.Inv oneQueued.cfg ∧ (∃ s', exec .popPanel oneQueued = .next s') ∧
    (∃ s', exec (.init false) oneQueued = .next s') ∧
    (frameCaptured oneQueued).queue.Inv (frameCaptured oneQueued).cfg ∧
    ∃ s', exec (.tick 2301) (frameCaptured oneQueued) = .next s' :=
  ⟨queueInv_one, ⟨_, rfl⟩, ⟨_, rfl⟩, queueInv_one, ⟨_, rfl⟩⟩

theorem queueInv_started : (started false).queue.Inv (started false).cfg := by
  refine ⟨by decide, by decide, by decide, ?_, ?_⟩
  · intro x hx
    rw [List.eq_of_mem_replicate hx]
    exact ⟨by decide, by decide, by decide⟩
  · intro i _ h
    have h' : i < 2 := h
    interval_cases i <;> decide

/-- The FIFO premise of the clause with room. -/
theorem witness_PeriodicTicksEndTheFrameInTime_room :
    (started false).queue.Inv (started false).cfg ∧
    (started false).queue.count < (started false).cfg.queueCapacity := ⟨queueInv_started, by decide⟩

theorem witness_QueueOverflowKeepsTheOldestFrames :
    (started false).queue.Inv (started false).cfg ∧ (started false).queue.count = 0 ∧
    (started false).flags.bufferOverflow = false ∧
    [goodSlot, badSlot].length = (started false).cfg.queueCapacity ∧
    (started false).cfg.queueCapacity < [goodSlot, badSlot, goodSlot].length :=
  ⟨queueInv_started, by decide⟩

theorem witness_SlotReadAfterWrite :
    1 < oneQueued.queue.fifo.length ∧ (1 < 2) ∧ (Space.output ≠ Space.fifo ∨ (0 : Nat) ≠ 0) := by
  decide

/-- RC's ChecksumFn is Sum8 (the sum of R136 on no byte, and past 255); a truncated slot, a short one, and
one on both inner boundaries (25 bits, three bytes is the least). -/
theorem witness_ValidateIsTheExactChecksum :
    Config.rc.checksumFn = .sum8 ∧ checksum Config.rc [] = 0#8 ∧
    checksum Config.rc [0xFF#8, 0x02#8] = 0x01#8 ∧
    8 * Config.rc.maxFrameBytes - 7 < (⟨[0x05#8, 0x01#8, 0x06#8, 0x0C#8], 4, 26⟩ : Slot).bitCount ∧
    (⟨[0x05#8, 0x01#8, 0x05#8, 0x00#8], 2, 12⟩ : Slot).byteCount < Config.rc.minValidBytes ∧
    (goodSlot.bitCount ≤ 8 * Config.rc.maxFrameBytes - 7 ∧
      Config.rc.minValidBytes ≤ goodSlot.byteCount ∧ goodSlot.byteCount ≤ goodSlot.bytes.length ∧
      2 ≤ goodSlot.byteCount) ∧
    (⟨[0x05#8, 0x01#8, 0x06#8, 0x0C#8], 4, 25⟩ : Slot).bitCount ≤ 8 * Config.rc.maxFrameBytes - 7 := by
  decide

theorem witness_AWrongChecksumByteIsRejected :
    Config.rc.wf = true ∧ goodSlot.Inv Config.rc ∧ validate Config.rc goodSlot = true ∧
    0x07#8 ≠ goodSlot.bytes.getD (goodSlot.byteCount - 1) 0#8 :=
  ⟨by decide, ⟨by decide, by decide, by decide⟩, by decide, by decide⟩

/-- Two slots that differ in the trailing bits only. -/
theorem witness_TrailingBitsDoNotChangeTheVerdict :
    let y : Slot := ⟨[0x05#8, 0x01#8, 0x06#8, 0x03#8], 3, 17⟩
    Config.rc.wf = true ∧ goodSlot.byteCount = y.byteCount ∧ goodSlot.bitCount = y.bitCount ∧
    (∀ i < goodSlot.byteCount, goodSlot.bytes.getD i 0#8 = y.bytes.getD i 0#8) ∧
    goodSlot ≠ y := by decide

theorem witness_DeviceVerdict :
    8 * Config.rc.maxFrameBytes - 7 < 26 ∧ deviceSlot.bitCount ≤ 8 * Config.rc.maxFrameBytes - 7 ∧
    1 ≤ deviceSlot.byteCount ∧ Config.rc.deviceChecksum = false ∧
    { Config.rc with deviceChecksum := true }.deviceChecksum = true := by decide

theorem witness_FlagClearsClearOneFlag : State.reset.Live := ⟨by decide, rfl⟩

theorem witness_StickyFlagsStaySet :
    (∃ s', exec (.tick 2301) { frameCaptured (started false) with
        flags := { dataOverflow := true, bufferOverflow := true } } = .next s') ∧
    (∃ s', exec (.sample true) { samplePending (started false) with panel := fourBytes } = .next s' ∧
      s'.flags.dataOverflow = true) ∧
    ∃ s', exec (.tick 2301) { frameCaptured (started false) with
        queue := { fifo := [goodSlot, badSlot], head := 1, count := 2 } } = .next s' ∧
      s'.flags.bufferOverflow = true := ⟨⟨_, rfl⟩, ⟨_, rfl, rfl⟩, ⟨_, rfl, rfl⟩⟩

/-- The longest job that fits and the shortest that does not; and each ground of rejection. -/
theorem witness_StageSeqStagesOneJob :
    (started true).Live ∧ (started true).ctl.bound = true ∧ (started true).ctl.writeEnabled = true ∧
    (started true).inj.writePending = false ∧
    [1#8, 2#8, 3#8, 4#8].length ≤ (started true).cfg.maxJobKeys ∧
    (started true).cfg.maxJobKeys < [1#8, 2#8, 3#8, 4#8, 5#8].length ∧
    State.reset.ctl.bound = false ∧ (started false).ctl.writeEnabled = false ∧
    (inWindow [1#8] 0 0).inj.writePending = true := ⟨live_started true, by decide⟩

theorem witness_StageKeyIsAOneKeySequence :
    (started true).Live ∧ (started true).ctl.bound = true ∧ (started true).ctl.writeEnabled = true ∧
    (started true).inj.writePending = false ∧ (started false).Live ∧
    (started false).ctl.writeEnabled = false := ⟨live_started true, rfl, rfl, rfl, live_started false, rfl⟩

theorem witness_PollsClearsAndStagingsNeverWriteCaptureState :
    (isConsumerAccess .popPanel = true ∧ ∃ s', exec .popPanel oneQueued = .next s') ∧
    isConsumerAccess .clrDovf = true ∧ ∃ s', exec .clrDovf { oneQueued with
      flags := { dataOverflow := true, bufferOverflow := true } } = .next s' ∧
      s'.flags.bufferOverflow = true := ⟨⟨rfl, _, rfl⟩, rfl, _, rfl, rfl⟩

/-- An edge that ends a job, and a hand-off. -/
theorem witness_InterruptStepsNeverWriteTheReadSide :
    (isConsumerAccess (.edge false 2050) = false ∧ isInit (.edge false 2050) = false ∧
      ∃ s', exec (.edge false 2050) (inWindow [0xA5#8] 0 7) = .next s') ∧
    (isConsumerAccess (.tick 2301) = false ∧ isInit (.tick 2301) = false ∧
      ∃ s', exec (.tick 2301) (frameCaptured oneQueued) = .next s') :=
  ⟨⟨rfl, rfl, _, rfl⟩, ⟨rfl, rfl, _, rfl⟩⟩

theorem witness_FlagClearsRaceOnlyWithTheirSetter :
    (∃ s1 s2, exec (.tick 2301) (frameCaptured oneQueued) = .next s1 ∧
      exec .clrDovf s1 = .next s2) ∧
    ∃ s1 s2, exec (.sample true) (samplePending oneQueued) = .next s1 ∧
      exec .clrBovf s1 = .next s2 := ⟨⟨_, _, rfl, rfl⟩, ⟨_, _, rfl, rfl⟩⟩

theorem witness_StagingAndTickCommute :
    ∃ s1 s2, exec (.tick 2301) (frameCaptured (started true)) = .next s1 ∧
      exec (.stageSeq [1#8]) s1 = .next s2 := ⟨_, _, rfl, rfl⟩

theorem framerInv_empty : (Framer.empty Config.rc).Inv Config.rc := by
  refine ⟨by decide, by decide, by decide, by decide, by decide, by decide, ⟨0, by decide, by decide⟩, ?_⟩
  intro i _
  by_cases h : i < 4
  · interval_cases i <;> decide
  · exact getD_past (Nat.le_of_not_lt h)

/-- `started` keeps the invariant. -/
theorem inv_started : (started false).Inv :=
  { cfgWf := by decide
    panelInv := framerInv_empty
    deviceInv := framerInv_empty
    queueInv := queueInv_started
    latchInv := ⟨by decide, by decide, by decide⟩
    panelOutInv := ⟨by decide, by decide, by decide⟩
    deviceOutInv := ⟨by decide, by decide, by decide⟩
    injInv := ⟨by decide, by decide, by decide, by decide⟩
    bitInDevice := by decide
    readyInDevice := by decide
    drivenEnabled := by decide
    pendingDue := fun h => nomatch h
    unbound := by decide
    edgeBeforeEvent := fun _ h => nomatch h
    eventBeforeDue := fun h => nomatch h }

theorem witness_AdmittedTimestampsNeverDecrease :
    (started false).Inv ∧ (started false).ctl.bound = true ∧
    (∀ i ∈ [Instr.edge true 1000, Instr.sample true, Instr.tick 1010], isInit i = false) ∧
    ∃ s', AdmittedRun [.edge true 1000, .sample true, .tick 1010] (started false) s' :=
  ⟨inv_started, rfl, by decide, _, rfl, rfl⟩

theorem witness_PowerUpKeepsTheInvariant : Config.rc.wf = true := by decide

theorem witness_EveryStepKeepsTheInvariant :
    State.Inv { started false with input := [.byte 0x21#8, .time 1000] } ∧
    ∃ s', step { started false with input := [.byte 0x21#8, .time 1000] } = .next s' := by
  refine ⟨?_, _, rfl⟩
  cases inv_started
  constructor <;> assumption

theorem witness_WritesDisabledNeverDrives :
    Config.rc.wf = true ∧ Reachable Config.rc State.reset ∧
    State.reset.ctl.writeEnabled = false := ⟨by decide, .powerUp, rfl⟩

/-- So < dt at its boundary, and dt = So (V-ENC-21). -/
theorem witness_ClockBitsExpansion :
    (Config.rc.sampleOnRising = true ∧ Config.rc.sampleOnFalling = true ∧
      Config.rc.sampleOffset < 11) ∧
    ¬(Config.rc.sampleOnRising = true ∧ Config.rc.sampleOnFalling = true ∧
      Config.rc.sampleOffset < 10) := by decide

/-- P1's frame, with the first idle time. -/
theorem witness_AFrameOnTheBusIsDelivered :
    State.reset.Live ∧ State.reset.cfg.sampleOnRising = true ∧
    State.reset.cfg.sampleOnFalling = true ∧ 3 ≤ [0x05#8, 0x01#8, 0x06#8].length ∧
    [0x05#8, 0x01#8, 0x06#8].length ≤ State.reset.cfg.maxFrameBytes ∧
    ∃ bits ops, frameBits State.reset.cfg [0x05#8, 0x01#8, 0x06#8] = .ok bits ∧
      clockBits State.reset.cfg true 1000 50 bits = .ok ops ∧
      50 ≤ State.reset.cfg.longHighThreshold ∧
      1000 + (bits.length - 1) * 50 + State.reset.cfg.idleThreshold < 2301 :=
  ⟨⟨by decide, rfl⟩, by decide, by decide, by decide, by decide, _, _, rfl, rfl, by decide, by decide⟩

end Sys2Proof.Tests
end

