-- ==== Sys2Proof/Proofs/Scope.lean ====
section
/-! PROOF. The scope of the model: well-formed configurations (R8), the configuration along a run (R7,
R52), and a step as `exec` of the decoded operation (R57). -/

namespace Sys2Proof

/-- The constraints of R8, as propositions. -/
theorem Config.wf_iff (c : Config) : c.wf = true ↔
    (3 ≤ c.maxFrameBytes ∧ c.maxFrameBytes ≤ 8192) ∧ 1 ≤ c.queueCapacity ∧
    (0 < c.sampleOffset ∧ c.sampleOffset < c.idleThreshold) ∧
    c.longHighThreshold < c.idleThreshold ∧ 0 < c.timerPeriod ∧
    (c.sampleOnRising = true ∨ c.sampleOnFalling = true) ∧ 1 ≤ c.maxJobKeys ∧
    c.minValidBytes = 3 := by
  simp only [Config.wf, Bool.and_eq_true, Bool.or_eq_true, decide_eq_true_eq, and_assoc]

end Sys2Proof

namespace Sys2Proof.Machine

/-! ### The configuration -/

@[simp] theorem State.afterInit_cfg (s : State) (w : Bit) : (s.afterInit w).cfg = s.cfg := rfl

@[simp] theorem State.takeEdge_cfg (s : State) (l : Bit) (t : Nat) :
    (s.takeEdge l t).cfg = s.cfg := by
  rw [State.takeEdge_frame]

@[simp] theorem State.takeSample_cfg (s : State) (b : Bit) : (s.takeSample b).cfg = s.cfg := by
  rw [State.takeSample_eq]

@[simp] theorem State.handOff_cfg (s : State) : s.handOff.cfg = s.cfg := by
  rw [State.handOff_eq]

@[simp] theorem State.takeTick_cfg (s : State) (t : Nat) : (s.takeTick t).cfg = s.cfg := by
  obtain ⟨-, h⟩ | ⟨-, h⟩ := s.takeTick_cases t <;> simp [h]

theorem State.stage_cfg {ks : List Byte} {s s' : State} (h : s.stage ks = .next s') :
    s'.cfg = s.cfg := by
  obtain ⟨-, ⟨-, rfl⟩ | ⟨-, rfl⟩⟩ := State.stage_cases h
  · rfl
  · exact s.withJob_cfg ks

/-- No operation writes the configuration (R52): a case for each operation, by what it can do. -/
theorem exec_cfg {i : Instr} {s s' : State} (h : exec i s = .next s') : s'.cfg = s.cfg := by
  cases i with
  | init w =>
    obtain ⟨-, rfl⟩ := execInit_cases h
    exact s.afterInit_cfg w
  | edge l t =>
    obtain ⟨-, ⟨-, rfl⟩ | ⟨-, -, ⟨-, rfl⟩ | ⟨-, -, -, rfl⟩ | ⟨-, -, -, rfl⟩ | ⟨-, -, -, rfl⟩⟩⟩ :=
      execEdge_cases h
    case inr.inr.inr.inr => exact s.takeEdge_cfg l t
    all_goals rfl
  | sample b =>
    obtain ⟨-, -, rfl⟩ := execSample_cases h
    exact s.takeSample_cfg b
  | tick t =>
    obtain ⟨-, ⟨-, rfl⟩ | ⟨-, -, ⟨-, rfl⟩ | ⟨-, rfl⟩⟩⟩ := execTick_cases h
    case inr.inr => exact s.takeTick_cfg t
    all_goals rfl
  | popPanel =>
    obtain ⟨-, ⟨-, rfl⟩ | ⟨-, -, rfl⟩⟩ := execPopPanel_cases h
    · rfl
    · exact s.takePanel_cfg
  | popDevice =>
    obtain ⟨-, ⟨-, rfl⟩ | ⟨-, -, rfl⟩⟩ := execPopDevice_cases h
    · rfl
    · exact s.takeDevice_cfg
  | clrDovf =>
    obtain ⟨-, rfl⟩ := execClrDovf_cases h
    exact s.clearDataOverflow_cfg
  | clrBovf =>
    obtain ⟨-, rfl⟩ := execClrBovf_cases h
    exact s.clearBufferOverflow_cfg
  | stageKey k => exact State.stage_cfg h
  | stageSeq ks => exact State.stage_cfg h

/-- Settles O11, operation by operation. -/
theorem configurationIsFixed : Obligations.ConfigurationIsFixed := by
  intro i s s' h
  exact exec_cfg h

/-! ### A step by its fetch -/

theorem step_of_illFormed {s : State} (h : s.cfg.wf = false) :
    step s = .refused .illFormedConfiguration := by
  simp [step, State.fetch, h]

/-- Needs no premise on the configuration: the step and `exec` refuse an ill-formed one alike. -/
theorem step_of_decode {s : State} {i : Instr} {rest : List Datum}
    (h : decode s.input = .ok (i, rest)) : step s = exec i { s with input := rest } := by
  cases hw : s.cfg.wf
  · rw [step_of_illFormed hw, exec_of_illFormed i (s := { s with input := rest }) hw]
  · simp [step, State.fetch, hw, h]

theorem step_of_decode_error {s : State} {e : DecodeError} (hw : s.cfg.wf = true)
    (h : decode s.input = .error e) : step s = decodeStop e := by
  simp [step, State.fetch, hw, h]

/-- Settles O6: the two outcomes of the decoder in a step. -/
theorem stepRunsTheDecodedOperation : Obligations.StepRunsTheDecodedOperation := by
  refine ⟨fun s i rest h => step_of_decode h, fun s hw hi => ?_⟩
  have hd : decode s.input = .error .noOperation := by rw [hi]; rfl
  exact step_of_decode_error hw hd

/-- Settles O8: R8's constraints, and the gate of every operation and of the fetch. -/
theorem illFormedConfigurationIsRefused : Obligations.IllFormedConfigurationIsRefused :=
  ⟨Config.wf_iff, fun i _ h => ⟨exec_of_illFormed i h, step_of_illFormed h⟩⟩

end Sys2Proof.Machine
end

section
/-! PROOF. The state along the operations: what each leaves alone, the fault register and the sticky
flags (R26, R33, R197), the agents (R34, R176), the panel-frame FIFO as a queue (R28, R58, R129),
the reset table (R35), and the invariant of R36. -/

namespace Sys2Proof.Machine

/-! ### What a taken EDGE, SAMPLE and TICK leave alone -/

@[simp] theorem State.takeEdge_queue (s : State) (l : Bit) (t : Nat) :
    (s.takeEdge l t).queue = s.queue := by rw [State.takeEdge_frame]
@[simp] theorem State.takeEdge_flags (s : State) (l : Bit) (t : Nat) :
    (s.takeEdge l t).flags = s.flags := by rw [State.takeEdge_frame]
@[simp] theorem State.takeEdge_out (s : State) (l : Bit) (t : Nat) :
    (s.takeEdge l t).out = s.out := by rw [State.takeEdge_frame]
@[simp] theorem State.takeEdge_ctl (s : State) (l : Bit) (t : Nat) :
    (s.takeEdge l t).ctl = s.ctl := by rw [State.takeEdge_frame]
@[simp] theorem State.takeEdge_fault (s : State) (l : Bit) (t : Nat) :
    (s.takeEdge l t).fault = s.fault := by rw [State.takeEdge_frame]

@[simp] theorem State.takeSample_queue (s : State) (b : Bit) :
    (s.takeSample b).queue = s.queue := by rw [State.takeSample_eq]
@[simp] theorem State.takeSample_out (s : State) (b : Bit) :
    (s.takeSample b).out = s.out := by rw [State.takeSample_eq]
@[simp] theorem State.takeSample_inj (s : State) (b : Bit) :
    (s.takeSample b).inj = s.inj := by rw [State.takeSample_eq]
@[simp] theorem State.takeSample_ctl (s : State) (b : Bit) :
    (s.takeSample b).ctl = s.ctl := by rw [State.takeSample_eq]
@[simp] theorem State.takeSample_fault (s : State) (b : Bit) :
    (s.takeSample b).fault = s.fault := by rw [State.takeSample_eq]

@[simp] theorem State.handOff_out (s : State) : s.handOff.out = s.out := by
  rw [State.handOff_eq]
@[simp] theorem State.handOff_ctl (s : State) : s.handOff.ctl = s.ctl := by
  rw [State.handOff_eq]
@[simp] theorem State.handOff_fault (s : State) : s.handOff.fault = s.fault := by
  rw [State.handOff_eq]

@[simp] theorem State.takeTick_out (s : State) (t : Nat) : (s.takeTick t).out = s.out := by
  obtain ⟨-, h⟩ | ⟨-, h⟩ := s.takeTick_cases t <;> simp [h]
@[simp] theorem State.takeTick_ctl (s : State) (t : Nat) : (s.takeTick t).ctl = s.ctl := by
  obtain ⟨-, h⟩ | ⟨-, h⟩ := s.takeTick_cases t <;> simp [h]
@[simp] theorem State.takeTick_fault (s : State) (t : Nat) : (s.takeTick t).fault = s.fault := by
  obtain ⟨-, h⟩ | ⟨-, h⟩ := s.takeTick_cases t <;> simp [h]

@[simp] theorem State.storeDevice_queue (s : State) : s.storeDevice.queue = s.queue := by
  unfold State.storeDevice
  split <;> simp

/-- A hand-off queues the panel frame where there is room, or leaves the FIFO as it was. -/
theorem State.handOff_queue_cases (s : State) :
    s.handOff.queue = s.queue ∨
    (s.queue.count < s.cfg.queueCapacity ∧
      s.handOff.queue = (s.fifoAppend s.panel.slot).queue) := by
  have hq : s.handOff.queue = s.storePanel.queue := by simp [State.handOff]
  rw [hq, State.storePanel]
  split
  · by_cases hroom : s.queue.count < s.cfg.queueCapacity
    · exact .inr ⟨hroom, rfl⟩
    · exact .inl (by simp [State.fifoAppend_eq, hroom])
  · exact .inl rfl

theorem State.takeTick_queue_cases (s : State) (t : Nat) :
    (s.takeTick t).queue = s.queue ∨
    (s.queue.count < s.cfg.queueCapacity ∧
      (s.takeTick t).queue = (s.fifoAppend s.panel.slot).queue) := by
  obtain ⟨-, h⟩ | ⟨-, h⟩ := s.takeTick_cases t
  · exact .inl (by rw [h, State.stampEvent_queue])
  · have hstamp : ((s.stampEvent t).fifoAppend s.panel.slot).queue =
        (s.fifoAppend s.panel.slot).queue := by rw [State.fifoAppend_eq, State.fifoAppend_eq]; rfl
    rw [h, ← hstamp]
    exact (s.stampEvent t).handOff_queue_cases

/-! ### The fault register -/

theorem State.stage_fault {ks : List Byte} {s s' : State} (h : s.stage ks = .next s') :
    s'.fault = s.fault := by
  obtain ⟨-, ⟨-, rfl⟩ | ⟨-, rfl⟩⟩ := State.stage_cases h
  · rfl
  · exact s.withJob_fault ks

/-- Only an EDGE or a TICK raises a fault, and the fault is all it writes (R167). -/
theorem exec_fault_cases {i : Instr} {s s' : State} (h : exec i s = .next s') :
    s'.fault = s.fault ∨
    (∃ f, s' = { s with fault := some f }) ∧ ((∃ l t, i = .edge l t) ∨ ∃ t, i = .tick t) := by
  cases i with
  | init w =>
    obtain ⟨-, rfl⟩ := execInit_cases h
    exact .inl rfl
  | edge l t =>
    obtain ⟨-, ⟨-, rfl⟩ | ⟨-, -, ⟨-, rfl⟩ | ⟨-, -, -, rfl⟩ | ⟨-, -, -, rfl⟩ | ⟨-, -, -, rfl⟩⟩⟩ :=
      execEdge_cases h
    case inl => exact .inl rfl
    case inr.inr.inr.inr => exact .inl (s.takeEdge_fault l t)
    all_goals exact .inr ⟨⟨_, rfl⟩, .inl ⟨l, t, rfl⟩⟩
  | sample b =>
    obtain ⟨-, -, rfl⟩ := execSample_cases h
    exact .inl (s.takeSample_fault b)
  | tick t =>
    obtain ⟨-, ⟨-, rfl⟩ | ⟨-, -, ⟨-, rfl⟩ | ⟨-, rfl⟩⟩⟩ := execTick_cases h
    · exact .inl rfl
    · exact .inr ⟨⟨_, rfl⟩, .inr ⟨t, rfl⟩⟩
    · exact .inl (s.takeTick_fault t)
  | popPanel =>
    obtain ⟨-, ⟨-, rfl⟩ | ⟨-, -, rfl⟩⟩ := execPopPanel_cases h
    · exact .inl rfl
    · exact .inl s.takePanel_fault
  | popDevice =>
    obtain ⟨-, ⟨-, rfl⟩ | ⟨-, -, rfl⟩⟩ := execPopDevice_cases h
    · exact .inl rfl
    · exact .inl s.takeDevice_fault
  | clrDovf =>
    obtain ⟨-, rfl⟩ := execClrDovf_cases h
    exact .inl s.clearDataOverflow_fault
  | clrBovf =>
    obtain ⟨-, rfl⟩ := execClrBovf_cases h
    exact .inl s.clearBufferOverflow_fault
  | stageKey k => exact .inl (State.stage_fault h)
  | stageSeq ks => exact .inl (State.stage_fault h)

/-- The gate is shut for every operation once the fault register is set (R33). -/
theorem exec_of_faulted (i : Instr) {s : State} (hw : s.cfg.wf = true) (hf : s.fault ≠ none) :
    exec i s = .fault .modelFaulted := by
  cases i <;> exact State.whenEnabled_faulted hw hf _

/-- Settles O9: an operation with a next state starts with no fault, so a fault in it is a raised
one. -/
theorem faultRegisterIsSticky : Obligations.FaultRegisterIsSticky := by
  refine ⟨fun _ => rfl, fun i s s' f h hf => ?_, fun i _ => exec_of_faulted i⟩
  obtain hkeep | ⟨⟨f', rfl⟩, hi⟩ := exec_fault_cases h
  · have hnone : s'.fault = none := hkeep.trans (exec_next_live h).2
    rw [hnone] at hf
    cases hf
  · cases hf
    exact ⟨rfl, hi⟩

/-! ### The sticky flags -/

/-- A SAMPLE sets DataOverflow or no flag. -/
theorem State.takeSample_flags_cases (s : State) (b : Bit) :
    (s.takeSample b).flags = s.flags ∨
    (s.takeSample b).flags = { s.flags with dataOverflow := true } := by
  rw [State.takeSample_eq]
  cases (s.framer s.samp.dir).overflows s.cfg
  · exact .inl rfl
  · exact .inr rfl

theorem State.handOff_flags_cases (s : State) :
    s.handOff.flags = s.flags ∨ s.handOff.flags = { s.flags with bufferOverflow := true } := by
  rw [State.handOff_eq]
  by_cases h : 0 < s.panel.bitCount ∧ ¬s.queue.count < s.cfg.queueCapacity
  · exact .inr (if_pos h)
  · exact .inl (if_neg h)

/-- A TICK sets BufferOverflow or no flag. -/
theorem State.takeTick_flags_cases (s : State) (t : Nat) :
    (s.takeTick t).flags = s.flags ∨
    (s.takeTick t).flags = { s.flags with bufferOverflow := true } := by
  obtain ⟨-, h⟩ | ⟨-, h⟩ := s.takeTick_cases t
  · exact .inl (by rw [h, State.stampEvent_flags])
  · rw [h]
    exact (s.stampEvent t).handOff_flags_cases

theorem State.stage_flags {ks : List Byte} {s s' : State} (h : s.stage ks = .next s') :
    s'.flags = s.flags := by
  obtain ⟨-, ⟨-, rfl⟩ | ⟨-, rfl⟩⟩ := State.stage_cases h
  · rfl
  · exact s.withJob_flags ks

/-- Everything an operation can do to the flags: nothing, set the one it may set, clear the one it
clears, or reset both. -/
theorem exec_flags_cases {i : Instr} {s s' : State} (h : exec i s = .next s') :
    s'.flags = s.flags ∨
    ((∃ b, i = .sample b) ∧ s'.flags = { s.flags with dataOverflow := true }) ∨
    ((∃ t, i = .tick t) ∧ s'.flags = { s.flags with bufferOverflow := true }) ∨
    (i = .clrDovf ∧ s'.flags = { s.flags with dataOverflow := false }) ∨
    (i = .clrBovf ∧ s'.flags = { s.flags with bufferOverflow := false }) ∨
    (isInit i = true ∧ s'.flags = { dataOverflow := false, bufferOverflow := false }) := by
  cases i with
  | init w =>
    obtain ⟨-, rfl⟩ := execInit_cases h
    exact .inr (.inr (.inr (.inr (.inr ⟨rfl, rfl⟩))))
  | edge l t =>
    obtain ⟨-, ⟨-, rfl⟩ | ⟨-, -, ⟨-, rfl⟩ | ⟨-, -, -, rfl⟩ | ⟨-, -, -, rfl⟩ | ⟨-, -, -, rfl⟩⟩⟩ :=
      execEdge_cases h
    case inr.inr.inr.inr => exact .inl (s.takeEdge_flags l t)
    all_goals exact .inl rfl
  | sample b =>
    obtain ⟨-, -, rfl⟩ := execSample_cases h
    exact (s.takeSample_flags_cases b).imp_right fun hf => .inl ⟨⟨b, rfl⟩, hf⟩
  | tick t =>
    obtain ⟨-, ⟨-, rfl⟩ | ⟨-, -, ⟨-, rfl⟩ | ⟨-, rfl⟩⟩⟩ := execTick_cases h
    case inr.inr =>
      exact (s.takeTick_flags_cases t).imp_right fun hf => .inr (.inl ⟨⟨t, rfl⟩, hf⟩)
    all_goals exact .inl rfl
  | popPanel =>
    obtain ⟨-, ⟨-, rfl⟩ | ⟨-, -, rfl⟩⟩ := execPopPanel_cases h
    · exact .inl rfl
    · exact .inl s.takePanel_flags
  | popDevice =>
    obtain ⟨-, ⟨-, rfl⟩ | ⟨-, -, rfl⟩⟩ := execPopDevice_cases h
    · exact .inl rfl
    · exact .inl s.takeDevice_flags
  | clrDovf =>
    obtain ⟨-, rfl⟩ := execClrDovf_cases h
    exact .inr (.inr (.inr (.inl ⟨rfl, s.clearDataOverflow_flags⟩)))
  | clrBovf =>
    obtain ⟨-, rfl⟩ := execClrBovf_cases h
    exact .inr (.inr (.inr (.inr (.inl ⟨rfl, s.clearBufferOverflow_flags⟩))))
  | stageKey k => exact .inl (State.stage_flags h)
  | stageSeq ks => exact .inl (State.stage_flags h)

/-- Settles O42: the six things an operation can do to the flags. -/
theorem stickyFlagsStaySet : Obligations.StickyFlagsStaySet := by
  intro i s s' h
  obtain hf | ⟨⟨b, rfl⟩, hf⟩ | ⟨⟨t, rfl⟩, hf⟩ | ⟨rfl, hf⟩ | ⟨rfl, hf⟩ | ⟨hi, hf⟩ :=
    exec_flags_cases h
  · simp +contextual [hf]
  · simp +contextual [hf]
  · simp +contextual [hf]
  · simp +contextual [hf]
  · simp +contextual [hf]
  · simp [hf, hi]

/-! ### The agents -/

/-- What a staging leaves alone, of the capture state. -/
theorem State.stage_capture {ks : List Byte} {s s' : State} (h : s.stage ks = .next s') :
    s'.panel = s.panel ∧ s'.device = s.device ∧ s'.edge = s.edge ∧ s'.samp = s.samp ∧
    s'.inj.writeReady = s.inj.writeReady ∧ s'.inj.dout = s.inj.dout ∧ s'.ctl = s.ctl := by
  obtain ⟨-, ⟨-, rfl⟩ | ⟨-, rfl⟩⟩ := State.stage_cases h <;> simp

/-- The consumer's operations but INIT leave the capture state alone (R34, R149). -/
theorem exec_capture_of_isConsumerAccess {i : Instr} {s s' : State}
    (hi : isConsumerAccess i = true) (h : exec i s = .next s') :
    s'.panel = s.panel ∧ s'.device = s.device ∧ s'.edge = s.edge ∧ s'.samp = s.samp ∧
    s'.inj.writeReady = s.inj.writeReady ∧ s'.inj.dout = s.inj.dout ∧ s'.ctl = s.ctl := by
  cases i with
  | init w => cases hi
  | edge l t => cases hi
  | sample b => cases hi
  | tick t => cases hi
  | popPanel => obtain ⟨-, ⟨-, rfl⟩ | ⟨-, -, rfl⟩⟩ := execPopPanel_cases h <;> simp
  | popDevice => obtain ⟨-, ⟨-, rfl⟩ | ⟨-, -, rfl⟩⟩ := execPopDevice_cases h <;> simp
  | clrDovf =>
    obtain ⟨-, rfl⟩ := execClrDovf_cases h
    simp
  | clrBovf =>
    obtain ⟨-, rfl⟩ := execClrBovf_cases h
    simp
  | stageKey k => exact State.stage_capture h
  | stageSeq ks => exact State.stage_capture h

/-- Settles O45: the capture state by the operation, the flags by O42, whose setters are no polls,
clears or stagings. -/
theorem pollsClearsAndStagingsNeverWriteCaptureState :
    Obligations.PollsClearsAndStagingsNeverWriteCaptureState := by
  intro i s s' hi h
  obtain ⟨hp, hd, he, hs, hr, ho, hc⟩ := exec_capture_of_isConsumerAccess hi h
  obtain ⟨-, -, hdovf, hbovf⟩ := stickyFlagsStaySet i s s' h
  refine ⟨hp, hd, he, hs, hr, ho, hc, fun hset => ?_, fun hset => ?_⟩
  · by_contra hwas
    obtain ⟨b, rfl⟩ := hdovf (by simpa using hwas) hset
    cases hi
  · by_contra hwas
    obtain ⟨t, rfl⟩ := hbovf (by simpa using hwas) hset
    cases hi

/-- Driving a bit keeps the job, or ends it. -/
theorem Injector.afterBit_job (j : Injector) (v : Bit) :
    ((j.afterBit v).job = j.job ∧ (j.afterBit v).writePending = j.writePending) ∨
    ((j.afterBit v).job = [] ∧ (j.afterBit v).writePending = false) := by
  obtain ⟨-, h⟩ | ⟨-, -, h⟩ | ⟨-, -, h⟩ := j.afterBit_cases v <;> simp [h]

/-- An EDGE keeps the job, or ends it (R150). -/
theorem State.takeEdge_job (s : State) (l : Bit) (t : Nat) :
    ((s.takeEdge l t).inj.job = s.inj.job ∧
      (s.takeEdge l t).inj.writePending = s.inj.writePending) ∨
    ((s.takeEdge l t).inj.job = [] ∧ (s.takeEdge l t).inj.writePending = false) := by
  rw [State.takeEdge_inj]
  obtain ⟨-, h⟩ | ⟨-, h⟩ := (s.atInjection l t).inject_cases (Config.samples s.cfg l)
  · exact .inl (by simp [h, State.atInjection_inj])
  · rw [h]
    simpa [State.atInjection_inj] using
      (s.atInjection l t).inj.afterBit_job (s.atInjection l t).driveLevel

theorem State.takeTick_job (s : State) (t : Nat) :
    (s.takeTick t).inj.job = s.inj.job ∧
    (s.takeTick t).inj.writePending = s.inj.writePending := by
  obtain ⟨-, h⟩ | ⟨-, h⟩ := s.takeTick_cases t <;> simp [h, State.handOff_eq]

theorem State.takeTick_head (s : State) (t : Nat) :
    (s.takeTick t).queue.head = s.queue.head := by
  obtain h | ⟨hroom, h⟩ := s.takeTick_queue_cases t
  · rw [h]
  · simp [h, State.fifoAppend_eq, hroom]

/-- Settles O46, for each of the three operations by what it can do. -/
theorem interruptStepsNeverWriteTheReadSide :
    Obligations.InterruptStepsNeverWriteTheReadSide := by
  intro i s s' hc hi h
  cases i with
  | edge l t =>
    obtain ⟨-, ⟨-, rfl⟩ | ⟨-, -, ⟨-, rfl⟩ | ⟨-, -, -, rfl⟩ | ⟨-, -, -, rfl⟩ | ⟨-, -, -, rfl⟩⟩⟩ :=
      execEdge_cases h
    case inr.inr.inr.inr =>
      refine ⟨by simp, by simp, by simp, (s.takeEdge_job l t).imp_right ?_⟩
      exact fun ⟨hj, hp⟩ => ⟨hj, hp, l, t, rfl⟩
    all_goals exact ⟨rfl, rfl, rfl, .inl ⟨rfl, rfl⟩⟩
  | sample b =>
    obtain ⟨-, -, rfl⟩ := execSample_cases h
    simp
  | tick t =>
    obtain ⟨-, ⟨-, rfl⟩ | ⟨-, -, ⟨-, rfl⟩ | ⟨-, rfl⟩⟩⟩ := execTick_cases h
    case inr.inr =>
      exact ⟨s.takeTick_head t, s.takeTick_out t, s.takeTick_ctl t, .inl (s.takeTick_job t)⟩
    all_goals exact ⟨rfl, rfl, rfl, .inl ⟨rfl, rfl⟩⟩
  | init w => cases hi
  | popPanel => cases hc
  | popDevice => cases hc
  | clrDovf => cases hc
  | clrBovf => cases hc
  | stageKey k => cases hc
  | stageSeq ks => cases hc

/-! ### The panel-frame FIFO as a queue -/

theorem State.queued_length (s : State) : s.queued.length = s.queue.count := by
  simp [State.queued]

/-- The queued frames are a function of the FIFO and the configuration. -/
theorem State.queued_congr {s s' : State} (hq : s'.queue = s.queue) (hc : s'.cfg = s.cfg) :
    s'.queued = s.queued := by
  have hslot : s'.queueSlot = s.queueSlot := by
    funext i
    simp only [State.queueSlot, State.memRead, hq, hc]
  rw [State.queued, State.queued, hslot, hq]

/-- Two different offsets from head are two different FIFO indices. -/
theorem ringIndex_ne {q i j : Nat} (h : Nat) (hi : i < q) (hj : j < q) (hij : i ≠ j) :
    (h + i) % q ≠ (h + j) % q := fun heq =>
  hij (Nat.ModEq.eq_of_lt_of_lt (Nat.ModEq.add_left_cancel' h heq) hi hj)

/-- Appending to a FIFO with room puts the slot behind the queued ones. -/
theorem State.queued_fifoAppend {s : State} (x : Slot) (hinv : s.queue.Inv s.cfg)
    (hroom : s.queue.count < s.cfg.queueCapacity) :
    (s.fifoAppend x).queued = s.queued ++ [x] := by
  have hpos : 0 < s.cfg.queueCapacity := Nat.zero_lt_of_lt hroom
  have hnew : (s.fifoAppend x).queueSlot s.queue.count = x := by
    simp [State.queueSlot, State.memRead, State.fifoAppend_eq, hroom, List.getD, hinv.size,
      Nat.mod_lt _ hpos]
  have hold : ∀ i ∈ List.range s.queue.count,
      (s.fifoAppend x).queueSlot i = s.queueSlot i := fun i hi => by
    have hlt : i < s.queue.count := List.mem_range.mp hi
    have hne := ringIndex_ne s.queue.head hroom (hlt.trans hroom) hlt.ne'
    simp [State.queueSlot, State.memRead, State.fifoAppend_eq, hroom, List.getD,
      List.getElem?_set_ne hne]
  have hcount : (s.fifoAppend x).queue.count = s.queue.count + 1 := by
    simp [State.fifoAppend_eq, hroom]
  rw [State.queued, hcount, List.range_succ, List.map_append, List.map_congr_left hold,
    List.map_singleton, hnew, State.queued]

/-- Taking from a FIFO that is not empty removes the first queued frame. -/
theorem State.queued_takePanel {s : State} (hinv : s.queue.Inv s.cfg)
    (hpos : 0 < s.queue.count) :
    s.queued = s.memRead .fifo s.queue.head :: s.takePanel.queued := by
  obtain ⟨n, hn⟩ : ∃ n, s.queue.count = n + 1 := ⟨_, (Nat.succ_pred_eq_of_pos hpos).symm⟩
  have hcap : n + 1 ≤ s.cfg.queueCapacity := hn ▸ hinv.countLe
  have hfirst : s.queueSlot 0 = s.memRead .fifo s.queue.head := by
    rw [State.queueSlot, Nat.add_zero, Nat.mod_eq_of_lt hinv.headLt]
  have hrest : ∀ i ∈ List.range n,
      s.queueSlot (i + 1) = s.takePanel.queueSlot i := fun i hi => by
    have hlt : i < n := List.mem_range.mp hi
    have hne : s.queue.head ≠ (s.queue.head + 1 + i) % s.cfg.queueCapacity := by
      have := ringIndex_ne (q := s.cfg.queueCapacity) (i := 0) (j := 1 + i) s.queue.head
        (by omega) (by omega) (by omega)
      rwa [Nat.add_zero, Nat.mod_eq_of_lt hinv.headLt, ← Nat.add_assoc] at this
    have hidx : s.queue.head + (i + 1) = s.queue.head + 1 + i := by omega
    simp [State.queueSlot, State.memRead, List.getD, hidx, List.getElem?_set_ne hne]
  have hcount : s.takePanel.queue.count = n := by simp [hn]
  rw [State.queued, hn, List.range_succ_eq_map, List.map_cons, List.map_map, hfirst,
    State.queued, hcount]
  exact congrArg _ (List.map_congr_left hrest)

theorem State.stage_queue {ks : List Byte} {s s' : State} (h : s.stage ks = .next s') :
    s'.queue = s.queue := by
  obtain ⟨-, ⟨-, rfl⟩ | ⟨-, rfl⟩⟩ := State.stage_cases h
  · rfl
  · exact s.withJob_queue ks

/-- Everything an operation can do to the FIFO: nothing, a TICK's append with room, a POP_PANEL's
take, or INIT's reset. -/
theorem exec_queue_cases {i : Instr} {s s' : State} (h : exec i s = .next s') :
    s'.queue = s.queue ∨
    ((∃ t, i = .tick t) ∧ s.queue.count < s.cfg.queueCapacity ∧
      s'.queue = (s.fifoAppend s.panel.slot).queue) ∨
    (i = .popPanel ∧ 0 < s.queue.count ∧ s'.queue = s.takePanel.queue ∧
      s'.out = s.takePanel.out) ∨
    ((∃ w, i = .init w) ∧ s'.queue = (State.resetWith s.cfg).queue) := by
  cases i with
  | init w =>
    obtain ⟨-, rfl⟩ := execInit_cases h
    exact .inr (.inr (.inr ⟨⟨w, rfl⟩, rfl⟩))
  | edge l t =>
    obtain ⟨-, ⟨-, rfl⟩ | ⟨-, -, ⟨-, rfl⟩ | ⟨-, -, -, rfl⟩ | ⟨-, -, -, rfl⟩ | ⟨-, -, -, rfl⟩⟩⟩ :=
      execEdge_cases h
    case inr.inr.inr.inr => exact .inl (s.takeEdge_queue l t)
    all_goals exact .inl rfl
  | sample b =>
    obtain ⟨-, -, rfl⟩ := execSample_cases h
    exact .inl (s.takeSample_queue b)
  | tick t =>
    obtain ⟨-, ⟨-, rfl⟩ | ⟨-, -, ⟨-, rfl⟩ | ⟨-, rfl⟩⟩⟩ := execTick_cases h
    case inr.inr =>
      exact (s.takeTick_queue_cases t).imp_right fun ⟨hroom, hq⟩ => .inl ⟨⟨t, rfl⟩, hroom, hq⟩
    all_goals exact .inl rfl
  | popPanel =>
    obtain ⟨-, ⟨-, rfl⟩ | ⟨-, hpos, rfl⟩⟩ := execPopPanel_cases h
    · exact .inl rfl
    · exact .inr (.inr (.inl ⟨rfl, hpos, rfl, rfl⟩))
  | popDevice =>
    obtain ⟨-, ⟨-, rfl⟩ | ⟨-, -, rfl⟩⟩ := execPopDevice_cases h
    · exact .inl rfl
    · exact .inl s.takeDevice_queue
  | clrDovf =>
    obtain ⟨-, rfl⟩ := execClrDovf_cases h
    exact .inl s.clearDataOverflow_queue
  | clrBovf =>
    obtain ⟨-, rfl⟩ := execClrBovf_cases h
    exact .inl s.clearBufferOverflow_queue
  | stageKey k => exact .inl (State.stage_queue h)
  | stageSeq ks => exact .inl (State.stage_queue h)

/-- Settles O34: the four things an operation can do to the FIFO, as what they do to the list of
queued frames. -/
theorem framesAreDeliveredInHandOffOrder : Obligations.FramesAreDeliveredInHandOffOrder := by
  intro i s s' hinv h
  have hcfg : s'.cfg = s.cfg := exec_cfg h
  obtain hq | ⟨⟨t, rfl⟩, hroom, hq⟩ | ⟨rfl, hpos, hq, hout⟩ | ⟨hi, hq⟩ := exec_queue_cases h
  · exact .inl (State.queued_congr hq hcfg)
  · refine .inr (.inl ⟨t, rfl, s.queued_length ▸ hroom, ?_⟩)
    rw [State.queued_congr hq (hcfg.trans (s.fifoAppend_cfg _).symm),
      State.queued_fifoAppend _ hinv hroom]
  · refine .inr (.inr (.inl ⟨rfl, ?_⟩))
    rw [State.queued_congr hq (hcfg.trans s.takePanel_cfg.symm), hout, State.takePanel_out,
      State.queued_takePanel hinv hpos]
  · have hcount : s'.queue.count = 0 := by rw [hq]; rfl
    exact .inr (.inr (.inr ⟨hi, List.eq_nil_of_length_eq_zero (s'.queued_length.trans hcount)⟩))

/-! ### The reset table -/

theorem State.resetWith_atResetValues (c : Config) :
    (State.resetWith c).AtResetValues c false false := by
  constructor
  case buf | byteCount | bitInByte | bitCount | trunc =>
    intro d
    cases d <;> rfl
  all_goals rfl

/-- The two columns of R35 differ in the control state only. -/
theorem State.afterInit_atResetValues (s : State) (w : Bit) :
    (s.afterInit w).AtResetValues s.cfg true w :=
  { State.resetWith_atResetValues s.cfg with
    bound := rfl
    writeEnabled := rfl }

/-- Settles O13. -/
theorem resetTable : Obligations.ResetTable := by
  refine ⟨fun c => ⟨State.resetWith_atResetValues c, rfl⟩, fun w s hl => ?_⟩
  exact ⟨s.afterInit w, State.whenEnabled_of_live hl _, s.afterInit_atResetValues w, rfl,
    s.afterInit_cfg w⟩

/-! ### The invariant of R36 at the reset values -/

theorem Framer.inv_empty (c : Config) : (Framer.empty c).Inv c where
  bufSize := List.length_replicate
  byteCountLe := Nat.zero_le _
  bitInByteLe := Nat.zero_le _
  fullHasNoBits _ := rfl
  stopByteHasNoBits _ := rfl
  truncIsFull h := nomatch h
  bitCountCounts := ⟨0, by simp [Framer.empty], by simp [Framer.empty, stored]⟩
  unwrittenZero i _ := List.getElem?_getD_replicate_default_eq _ _ i

theorem Slot.inv_empty (c : Config) : (Slot.empty c).Inv c where
  size := List.length_replicate
  byteCountLe := Nat.zero_le _
  bitCountLe := Nat.zero_le _

theorem FrameQueue.inv_empty {c : Config} (hq : 1 ≤ c.queueCapacity) :
    FrameQueue.Inv
      { fifo := List.replicate c.queueCapacity (Slot.empty c), head := 0, count := 0 } c where
  size := List.length_replicate
  headLt := hq
  countLe := Nat.zero_le _
  slots _ hx := List.eq_of_mem_replicate hx ▸ Slot.inv_empty c
  deadEmpty _ _ _ := List.getElem?_getD_replicate_default_eq _ _ _

theorem State.resetWith_inv {c : Config} (hw : c.wf = true) : (State.resetWith c).Inv where
  cfgWf := hw
  panelInv := Framer.inv_empty c
  deviceInv := Framer.inv_empty c
  queueInv := FrameQueue.inv_empty (c.wf_iff.mp hw).2.1
  latchInv := Slot.inv_empty c
  panelOutInv := Slot.inv_empty c
  deviceOutInv := Slot.inv_empty c
  injInv :=
    { idle := fun _ => ⟨rfl, rfl, rfl⟩
      busy := fun h => nomatch h
      bitIdxLe := Nat.zero_le 7
      midKey := fun h => nomatch h }
  bitInDevice h := nomatch h
  readyInDevice h := nomatch h
  drivenEnabled h := absurd rfl h
  pendingDue h := nomatch h
  unbound _ := ⟨rfl, rfl, rfl⟩
  edgeBeforeEvent _ h := nomatch h
  eventBeforeDue h := nomatch h

/-- Settles O50. -/
theorem powerUpKeepsTheInvariant : Obligations.PowerUpKeepsTheInvariant :=
  fun _ hw => State.resetWith_inv hw

theorem State.Inv.afterInit {s : State} (h : s.Inv) (w : Bit) : (s.afterInit w).Inv :=
  { State.resetWith_inv h.cfgWf with
    drivenEnabled := fun hd => absurd rfl hd
    unbound := fun hb => nomatch hb }

/-! ### The invariant of a framer -/

/-- A byte complete adds its width to the bits stored (R71, R73). -/
theorem stored_succ (n : Nat) : stored (n + 1) = stored n + byteWidth n := by
  unfold stored byteWidth
  split_ifs <;> omega

/-- The counter of R97 counts one more bit up to BitCountMax. -/
theorem Framer.count_bitCount {f : Framer} {n : Nat} (h : f.bitCount = min Config.bitCountMax n) :
    f.count.bitCount = min Config.bitCountMax (n + 1) := by
  simp only [Framer.count]
  split_ifs <;> omega

/-- No bit has been discarded from a frame that is not truncated. -/
theorem Framer.Inv.bitCount_of_not_trunc {f : Framer} {c : Config} (h : f.Inv c)
    (ht : f.trunc = false) :
    f.bitCount = min Config.bitCountMax (stored f.byteCount + f.bitInByte) := by
  obtain ⟨discarded, hpos, hcount⟩ := h.bitCountCounts
  have hnone : discarded = 0 := by simpa [ht] using hpos
  rwa [hnone] at hcount

/-- A bit discarded from a full buffer only adds to the discarded bits. -/
theorem Framer.Inv.discard {f : Framer} {c : Config} (h : f.Inv c)
    (hfull : f.byteCount = c.maxFrameBytes) : Framer.Inv { f.count with trunc := true } c := by
  obtain ⟨discarded, -, hcount⟩ := h.bitCountCounts
  exact { h with
    truncIsFull := fun _ => hfull
    bitCountCounts := ⟨discarded + 1, by simp, Framer.count_bitCount hcount⟩ }

/-- A bit placed in a buffer with room is in the byte in progress, or completes it. -/
theorem Framer.Inv.place {f : Framer} {c : Config} (h : f.Inv c) (ht : f.trunc = false)
    (hroom : f.byteCount ≠ c.maxFrameBytes) (order : BitOrder) (b : Bit) :
    (f.count.place order b).Inv c := by
  have hlt : f.byteCount < c.maxFrameBytes := lt_of_le_of_ne h.byteCountLe hroom
  have hcount := Framer.count_bitCount (h.bitCount_of_not_trunc ht)
  have hbytes (y : Byte) (i : Nat) (hi : f.byteCount < i) :
      (f.buf.set f.byteCount y).getD i 0#8 = 0#8 := by
    rw [List.getD, List.getElem?_set_ne hi.ne]
    exact h.unwrittenZero i (.inl hi)
  rw [Framer.place_eq]
  by_cases hlast : f.bitInByte + 1 = byteWidth f.byteCount
  · simp only [Framer.count, hlast, if_true]
    exact {
      bufSize := by simpa using h.bufSize
      byteCountLe := hlt
      bitInByteLe := Nat.zero_le _
      fullHasNoBits := fun _ => rfl
      stopByteHasNoBits := fun _ => rfl
      truncIsFull := fun htr => by simp [ht] at htr
      bitCountCounts := ⟨0, by simp [ht], by
        rw [stored_succ, ← hlast]
        exact hcount⟩
      unwrittenZero := fun i hi => hbytes _ i (by dsimp only at hi; omega) }
  · have hstop : f.byteCount ≠ 1 := fun h1 => hlast (by rw [h.stopByteHasNoBits h1, h1]; rfl)
    have hwidth : byteWidth f.byteCount = 8 := if_neg hstop
    have hbits := h.bitInByteLe
    simp only [Framer.count, hlast, if_false]
    exact {
      bufSize := by simpa using h.bufSize
      byteCountLe := h.byteCountLe
      bitInByteLe := by dsimp only; omega
      fullHasNoBits := fun hfull => absurd hfull hroom
      stopByteHasNoBits := fun h1 => absurd h1 hstop
      truncIsFull := fun htr => by simp [ht] at htr
      bitCountCounts := ⟨0, by simp [ht], hcount⟩
      unwrittenZero := fun i hi => hbytes _ i (by dsimp only at hi; omega) }

theorem Framer.Inv.append {f : Framer} {c : Config} (h : f.Inv c) (b : Bit) :
    (f.append c b).Inv c := by
  obtain ⟨ht, heq⟩ | ⟨-, hfull, heq⟩ | ⟨ht, hroom, heq⟩ := f.append_cases c b <;> rw [heq]
  · have hsame : f.count = { f.count with trunc := true } := by rw [← ht]; rfl
    rw [hsame]
    exact h.discard (h.truncIsFull ht)
  · exact h.discard hfull
  · exact h.place ht hroom c.bitOrder b

/-- The slot a framer hands off is in the ranges of R27. -/
theorem Framer.Inv.slot {f : Framer} {c : Config} (h : f.Inv c) : f.slot.Inv c where
  size := h.bufSize
  byteCountLe := h.byteCountLe
  bitCountLe := by
    obtain ⟨_, -, hcount⟩ := h.bitCountCounts
    exact hcount.trans_le (min_le_left _ _)

/-! ### The invariant of the FIFO -/

theorem FrameQueue.Inv.slotAt {q : FrameQueue} {c : Config} (h : q.Inv c) (i : Nat) :
    (q.fifo.getD i (Slot.empty c)).Inv c := by
  rw [List.getD]
  cases hx : q.fifo[i]? with
  | none => exact Slot.inv_empty c
  | some x => exact h.slots x (List.mem_of_getElem? hx)

/-- Slots that keep R27 still do when one of them is replaced by another one that does. -/
theorem slots_inv_set {xs : List Slot} {c : Config} (h : ∀ x ∈ xs, x.Inv c) (i : Nat) {y : Slot}
    (hy : y.Inv c) : ∀ x ∈ xs.set i y, x.Inv c := fun x hx => by
  obtain hmem | rfl := List.mem_or_eq_of_mem_set hx
  · exact h x hmem
  · exact hy

theorem FrameQueue.Inv.append {q : FrameQueue} {c : Config} {x : Slot} (h : q.Inv c)
    (hx : x.Inv c) (hroom : q.count < c.queueCapacity) :
    FrameQueue.Inv { q with
      fifo := q.fifo.set ((q.head + q.count) % c.queueCapacity) x
      count := q.count + 1 } c where
  size := by simpa using h.size
  headLt := h.headLt
  countLe := hroom
  slots := slots_inv_set h.slots _ hx
  deadEmpty i hi hcap := by
    have hi : q.count < i := hi
    rw [List.getD, List.getElem?_set_ne (ringIndex_ne q.head hroom hcap hi.ne)]
    exact h.deadEmpty i hi.le hcap

/-- The slot taken becomes the last dead one, at offset Q - 1 from the new head. -/
theorem FrameQueue.Inv.take {q : FrameQueue} {c : Config} (h : q.Inv c) (hpos : 0 < q.count) :
    FrameQueue.Inv
      { fifo := q.fifo.set q.head (Slot.empty c)
        head := (q.head + 1) % c.queueCapacity
        count := q.count - 1 } c where
  size := by simpa using h.size
  headLt := Nat.mod_lt _ (Nat.zero_lt_of_lt h.headLt)
  countLe := (Nat.sub_le _ _).trans h.countLe
  slots := slots_inv_set h.slots _ (Slot.inv_empty c)
  deadEmpty i hi hcap := by
    have hi : q.count - 1 ≤ i := hi
    have hhead : (q.head + 0) % c.queueCapacity = q.head := Nat.mod_eq_of_lt h.headLt
    have hidx : q.head + 1 + i = q.head + (i + 1) := by omega
    simp only [Nat.mod_add_mod, hidx]
    by_cases hlast : i + 1 = c.queueCapacity
    · have hsame : (q.head + (i + 1)) % c.queueCapacity = q.head := by
        rw [hlast, Nat.add_mod_right]
        exact hhead
      simp [hsame, List.getD, h.size, h.headLt]
    · have hlt : i + 1 < c.queueCapacity := by omega
      have hne := ringIndex_ne q.head (Nat.zero_lt_of_lt hlt) hlt (Nat.succ_ne_zero i).symm
      rw [hhead] at hne
      rw [List.getD, List.getElem?_set_ne hne]
      exact h.deadEmpty (i + 1) (by omega) hlt

/-! ### The invariant of the injector -/

/-- DOUT has no part in R36's injector clauses. -/
theorem Injector.Inv.setDout {j : Injector} {c : Config} (h : j.Inv c) (d : Option Bit) :
    Injector.Inv { j with dout := d } c := { h with }

theorem Injector.Inv.openWindow {j : Injector} {c : Config} (h : j.Inv c) :
    Injector.Inv { j with writeReady := true } c :=
  { h with midKey := fun hb => ⟨(h.midKey hb).1, rfl⟩ }

/-- Between keys the window may be closed. -/
theorem Injector.Inv.closeWindow {j : Injector} {c : Config} (h : j.Inv c) :
    Injector.Inv { j with writeReady := false, bitIdx := 0, dout := none } c :=
  { h with
    idle := fun hp => ⟨(h.idle hp).1, (h.idle hp).2.1, rfl⟩
    bitIdxLe := Nat.zero_le 7
    midKey := fun hb => nomatch hb }

theorem Injector.Inv.afterBit {j : Injector} {c : Config} (h : j.Inv c)
    (hp : j.writePending = true) (hr : j.writeReady = true) (v : Bit) : (j.afterBit v).Inv c := by
  obtain ⟨hone, hmax, hkey⟩ := h.busy hp
  have hbit := h.bitIdxLe
  obtain ⟨hin, heq⟩ | ⟨-, hnext, heq⟩ | ⟨-, -, heq⟩ := j.afterBit_cases v <;> rw [heq]
  · exact { h with
      idle := fun hi => nomatch hp.symm.trans hi
      bitIdxLe := by dsimp only; omega
      midKey := fun _ => ⟨hp, hr⟩ }
  · exact {
      idle := fun hi => nomatch hp.symm.trans hi
      busy := fun _ => ⟨hone, hmax, by dsimp only; omega⟩
      bitIdxLe := Nat.zero_le 7
      midKey := fun hb => nomatch hb }
  · exact {
      idle := fun _ => ⟨rfl, rfl, rfl⟩
      busy := fun hb => nomatch hb
      bitIdxLe := Nat.zero_le 7
      midKey := fun hb => nomatch hb }

/-! ### The invariant along the parts of an operation

One lemma for each part a meaning is composed of; the operations below are put together from them
as the meanings are. -/

theorem State.Inv.bound_of_pending {s : State} (h : s.Inv) (hp : s.samp.pending = true) :
    s.ctl.bound = true := by
  by_contra hb
  have hnot := (h.unbound (by simpa using hb)).1
  exact nomatch hp.symm.trans hnot

/-- R36 says nothing of the fault register, the result and the operations given. -/
theorem State.Inv.ofPorts {s : State} (h : s.Inv) (f : Option FaultCode) (r : Option Result)
    (ds : List Datum) : State.Inv { s with fault := f, result := r, input := ds } := { h with }

theorem State.Inv.setFramer {s : State} (h : s.Inv) (d : Dir) {f : Framer} (hf : f.Inv s.cfg) :
    (s.setFramer d f).Inv := by
  cases d
  · exact { h with panelInv := hf }
  · exact { h with deviceInv := hf }

/-- A bound block may set a flag. -/
theorem State.Inv.record {s : State} (h : s.Inv) (hb : s.ctl.bound = true) (e : BlockError) :
    (s.record e).Inv := by
  cases e
  · exact { h with unbound := fun hu => nomatch hb.symm.trans hu }
  · exact { h with unbound := fun hu => nomatch hb.symm.trans hu }
  · exact h

theorem State.Inv.clearDataOverflow {s : State} (h : s.Inv) : s.clearDataOverflow.Inv :=
  { h with unbound := fun hu => ⟨(h.unbound hu).1, rfl, (h.unbound hu).2.2⟩ }

theorem State.Inv.clearBufferOverflow {s : State} (h : s.Inv) : s.clearBufferOverflow.Inv :=
  { h with unbound := fun hu => ⟨(h.unbound hu).1, (h.unbound hu).2.1, rfl⟩ }

/-- A timestamp between the last edge and a pending sample's due time may be taken. -/
theorem State.Inv.stampEvent {s : State} (h : s.Inv) {t : Nat}
    (hedge : ∀ e, s.edge.tLastEdge = some e → e ≤ t)
    (hdue : s.samp.pending = true → t ≤ s.samp.due) : (s.stampEvent t).Inv :=
  { h with
    edgeBeforeEvent := fun e he => ⟨t, rfl, hedge e he⟩
    eventBeforeDue := fun hp u hu => by
      cases hu
      exact hdue hp }

theorem State.Inv.disarm {s : State} (h : s.Inv) :
    State.Inv { s with samp := { s.samp with pending := false } } :=
  { h with
    pendingDue := fun hp => nomatch hp
    unbound := fun hu => ⟨rfl, (h.unbound hu).2⟩
    eventBeforeDue := fun hp => nomatch hp }

theorem State.Inv.append {s : State} (h : s.Inv) (hb : s.ctl.bound = true) (d : Dir) (b : Bit) :
    (s.append d b).Inv := by
  have hf : ((s.framer d).append s.cfg b).Inv s.cfg := by
    cases d
    · exact h.panelInv.append b
    · exact h.deviceInv.append b
  have hset := h.setFramer d hf
  unfold State.append
  dsimp only
  split
  · exact hset.record ((congrArg Control.bound (s.setFramer_ctl d _)).trans hb) _
  · exact hset

theorem State.Inv.recordEdge {s : State} (h : s.Inv) (hp : s.samp.pending = false) (l : Bit)
    (t : Nat) : (s.recordEdge l t).Inv :=
  { h with
    pendingDue := fun hq => nomatch hp.symm.trans hq
    edgeBeforeEvent := fun e he => by
      cases he
      exact ⟨t, rfl, le_rfl⟩
    eventBeforeDue := fun hq => nomatch hp.symm.trans hq }

theorem State.Inv.openWindow {s : State} (h : s.Inv) (d : Dir) : (s.openWindow d).Inv := by
  unfold State.openWindow
  split
  · exact { h with
      injInv := h.injInv.openWindow
      bitInDevice := fun _ => rfl
      readyInDevice := fun _ => rfl }
  · exact h

theorem State.Inv.inject {s : State} (h : s.Inv) (sampled : Bool) : (s.inject sampled).Inv := by
  unfold State.inject
  split
  · rename_i hinj
    obtain ⟨-, hdir, hready, hpend, hwrite, -⟩ := (s.injects_iff sampled).mp hinj
    exact { h with
      injInv := h.injInv.afterBit hpend hready _
      bitInDevice := fun _ => hdir
      readyInDevice := fun _ => hdir
      drivenEnabled := fun _ => hwrite }
  · exact { h with
      injInv := h.injInv.setDout none
      drivenEnabled := fun hd => absurd rfl hd }

/-- The sample of an edge recorded at `t` may be armed. -/
theorem State.Inv.armSample {s : State} (h : s.Inv) (hb : s.ctl.bound = true) {t : Nat}
    (hedge : s.edge.tLastEdge = some t) (hevent : s.edge.tLastEvent = some t) (sampled : Bool) :
    (s.armSample sampled t).Inv := by
  unfold State.armSample
  split
  · exact { h with
      pendingDue := fun _ => ⟨t, hedge, rfl⟩
      unbound := fun hu => nomatch hb.symm.trans hu
      eventBeforeDue := fun _ u hu => by
        cases hevent.symm.trans hu
        exact Nat.le_add_right t _ }
  · exact h

theorem State.Inv.storePanel {s : State} (h : s.Inv) (hb : s.ctl.bound = true) :
    s.storePanel.Inv := by
  unfold State.storePanel State.fifoAppend
  split
  · split
    · rename_i hroom
      exact { h with queueInv := h.queueInv.append h.panelInv.slot hroom }
    · exact h.record hb _
  · exact h

theorem State.Inv.storeDevice {s : State} (h : s.Inv) : s.storeDevice.Inv := by
  unfold State.storeDevice
  split
  · exact { h with latchInv := h.deviceInv.slot }
  · exact h

theorem State.Inv.resetCapture {s : State} (h : s.Inv) : s.resetCapture.Inv :=
  { h with
    panelInv := Framer.inv_empty s.cfg
    deviceInv := Framer.inv_empty s.cfg
    injInv := h.injInv.closeWindow
    bitInDevice := fun hb => nomatch hb
    readyInDevice := fun hr => nomatch hr
    drivenEnabled := fun hd => absurd rfl hd }

/-- A job of one to K keys may be staged when none is pending. -/
theorem State.Inv.withJob {s : State} (h : s.Inv) {ks : List Byte}
    (hr : s.stageRejected ks = false) : (s.withJob ks).Inv := by
  have hlen : ks.length ≠ 0 ∧ ks.length ≤ s.cfg.maxJobKeys := by
    constructor
    · exact fun h0 => absurd ((s.stageRejected_iff ks).mpr (by simp [h0])) (by simp [hr])
    · by_contra hlong
      exact absurd ((s.stageRejected_iff ks).mpr (by simp [not_le.mp hlong])) (by simp [hr])
  obtain ⟨hone, hmax⟩ := hlen
  exact { h with
    injInv :=
      { idle := fun hi => nomatch hi
        busy := fun _ => ⟨Nat.pos_of_ne_zero hone, hmax, Nat.pos_of_ne_zero hone⟩
        bitIdxLe := Nat.zero_le 7
        midKey := fun hb => nomatch hb }
    bitInDevice := fun hb => nomatch hb }

/-! ### The invariant along a step -/

theorem State.Inv.takeEdge {s : State} (h : s.Inv) (hb : s.ctl.bound = true)
    (hp : s.samp.pending = false) (l : Bit) (t : Nat) : (s.takeEdge l t).Inv := by
  have hedge := s.takeEdge_edge l t
  simp only [State.takeEdge, State.armSample_edge] at hedge
  exact (((h.recordEdge hp l t).openWindow _).inject _).armSample (by simpa using hb)
    (by rw [hedge]) (by rw [hedge]) _

theorem State.Inv.takeSample {s : State} (h : s.Inv) (hp : s.samp.pending = true) (b : Bit) :
    (s.takeSample b).Inv := by
  obtain ⟨t, ht, hdue⟩ := h.pendingDue hp
  have hedge : ∀ e, s.edge.tLastEdge = some e → e ≤ s.samp.due := fun e he => by
    cases ht.symm.trans he
    omega
  exact (h.disarm.stampEvent hedge (fun hq => nomatch hq)).append (h.bound_of_pending hp) _ b

theorem State.Inv.takeTick {s : State} (h : s.Inv) (hb : s.ctl.bound = true) {t : Nat}
    (hd : s.sampleDueBy t = false) (hr : laterThan s.edge.tLastEvent t = false) :
    (s.takeTick t).Inv := by
  have hedge : ∀ e, s.edge.tLastEdge = some e → e ≤ t := fun e he => by
    obtain ⟨u, hu, heu⟩ := h.edgeBeforeEvent e he
    exact heu.trans ((laterThan_eq_false _ t).mp hr u hu)
  have hdue : s.samp.pending = true → t ≤ s.samp.due := fun hp => by
    by_contra hlate
    exact absurd ((s.sampleDueBy_iff t).mpr ⟨hp, (not_le.mp hlate).le⟩) (by simp [hd])
  have hstamp : (s.stampEvent t).Inv := h.stampEvent hedge hdue
  obtain ⟨-, heq⟩ | ⟨-, heq⟩ := s.takeTick_cases t <;> rw [heq]
  · exact hstamp
  · exact (hstamp.storePanel hb).storeDevice.resetCapture

theorem State.Inv.takePanel {s : State} (h : s.Inv) (hpos : 0 < s.queue.count) :
    s.takePanel.Inv :=
  { h with
    queueInv := h.queueInv.take hpos
    panelOutInv := h.queueInv.slotAt _ }

theorem State.Inv.takeDevice {s : State} (h : s.Inv) : s.takeDevice.Inv :=
  { h with
    latchInv := Slot.inv_empty s.cfg
    deviceOutInv := h.latchInv }

theorem State.Inv.stage {ks : List Byte} {s s' : State} (h : s.Inv) (hx : s.stage ks = .next s') :
    s'.Inv := by
  obtain ⟨-, ⟨-, rfl⟩ | ⟨hr, rfl⟩⟩ := State.stage_cases hx
  · exact h.ofPorts _ _ _
  · exact (h.withJob hr).ofPorts _ _ _

/-- Every operation keeps R36, operation by operation. -/
theorem State.Inv.exec {i : Instr} {s s' : State} (h : s.Inv) (hx : exec i s = .next s') :
    s'.Inv := by
  cases i with
  | init w =>
    obtain ⟨-, rfl⟩ := execInit_cases hx
    exact h.afterInit w
  | edge l t =>
    obtain ⟨-, ⟨-, rfl⟩ | ⟨hb, -, ⟨-, rfl⟩ | ⟨-, -, -, rfl⟩ | ⟨-, -, -, rfl⟩ | ⟨-, hp, -, rfl⟩⟩⟩ :=
      execEdge_cases hx
    case inl => exact h
    case inr.inr.inr.inr => exact h.takeEdge hb hp l t
    all_goals exact h.ofPorts _ _ _
  | sample b =>
    obtain ⟨-, hp, rfl⟩ := execSample_cases hx
    exact h.takeSample hp b
  | tick t =>
    obtain ⟨-, ⟨-, rfl⟩ | ⟨hb, hd, ⟨-, rfl⟩ | ⟨hr, rfl⟩⟩⟩ := execTick_cases hx
    · exact h
    · exact h.ofPorts _ _ _
    · exact h.takeTick hb hd hr
  | popPanel =>
    obtain ⟨-, ⟨-, rfl⟩ | ⟨-, hpos, rfl⟩⟩ := execPopPanel_cases hx
    · exact h.ofPorts _ _ _
    · exact (h.takePanel hpos).ofPorts _ _ _
  | popDevice =>
    obtain ⟨-, ⟨-, rfl⟩ | ⟨-, -, rfl⟩⟩ := execPopDevice_cases hx
    · exact h.ofPorts _ _ _
    · exact h.takeDevice.ofPorts _ _ _
  | clrDovf =>
    obtain ⟨-, rfl⟩ := execClrDovf_cases hx
    exact h.clearDataOverflow
  | clrBovf =>
    obtain ⟨-, rfl⟩ := execClrBovf_cases hx
    exact h.clearBufferOverflow
  | stageKey k => exact h.stage hx
  | stageSeq ks => exact h.stage hx

/-- Settles O51: taking the operation from the ones given writes no field of R36, and running it
keeps R36. -/
theorem everyStepKeepsTheInvariant : Obligations.EveryStepKeepsTheInvariant := by
  intro s s' h hstep
  obtain ⟨-, i, rest, -, hx⟩ := step_eq_next hstep
  exact State.Inv.exec (h.ofPorts s.fault s.result rest) hx

end Sys2Proof.Machine
end

section
/-! PROOF. The slots of the storage spaces as they are read and written (R51). -/

namespace Sys2Proof.Machine

/-! ### A slot just written -/

theorem State.memRead_memWrite_fifo {s : State} {i : Nat} (x : Slot)
    (hi : i < s.queue.fifo.length) : (s.memWrite .fifo i x).memRead .fifo i = x := by
  simp [State.memRead, State.memWrite, List.getD, hi]

theorem State.memRead_memWrite_devLatch (s : State) (x : Slot) :
    (s.memWrite .devLatch 0 x).memRead .devLatch 0 = x := rfl

theorem State.memRead_memWrite_output (s : State) {i : Nat} (x : Slot) (hi : i < 2) :
    (s.memWrite .output i x).memRead .output i = x := by
  obtain rfl | rfl : i = 0 ∨ i = 1 := by omega
  · rfl
  · rfl

/-! ### The other slots -/

/-- A write to one space leaves the fields of the other two alone. -/
theorem State.memWrite_queue_of_ne (s : State) {sp : Space} (i : Nat) (x : Slot)
    (h : sp ≠ .fifo) : (s.memWrite sp i x).queue = s.queue := by
  cases sp with
  | fifo => exact absurd rfl h
  | devLatch => simp only [State.memWrite]; split <;> rfl
  | output => simp only [State.memWrite]; split_ifs <;> rfl

theorem State.memWrite_latch_of_ne (s : State) {sp : Space} (i : Nat) (x : Slot)
    (h : sp ≠ .devLatch) : (s.memWrite sp i x).latch = s.latch := by
  cases sp with
  | fifo => rfl
  | devLatch => exact absurd rfl h
  | output => simp only [State.memWrite]; split_ifs <;> rfl

theorem State.memWrite_out_of_ne (s : State) {sp : Space} (i : Nat) (x : Slot)
    (h : sp ≠ .output) : (s.memWrite sp i x).out = s.out := by
  cases sp with
  | fifo => rfl
  | devLatch => simp only [State.memWrite]; split <;> rfl
  | output => exact absurd rfl h

theorem State.memRead_memWrite_of_space_ne (s : State) {sp sp' : Space} (i j : Nat) (x : Slot)
    (h : sp' ≠ sp) : (s.memWrite sp i x).memRead sp' j = s.memRead sp' j := by
  cases sp' with
  | fifo => simp only [State.memRead, State.memWrite_cfg, s.memWrite_queue_of_ne i x h.symm]
  | devLatch => simp only [State.memRead, State.memWrite_cfg, s.memWrite_latch_of_ne i x h.symm]
  | output => simp only [State.memRead, State.memWrite_cfg, s.memWrite_out_of_ne i x h.symm]

theorem State.memRead_memWrite_of_slot_ne (s : State) (sp : Space) {i j : Nat} (x : Slot)
    (h : j ≠ i) : (s.memWrite sp i x).memRead sp j = s.memRead sp j := by
  cases sp with
  | fifo => simp [State.memRead, State.memWrite, List.getD, List.getElem?_set_ne h.symm]
  | devLatch =>
    by_cases hi : i = 0
    · have hj : j ≠ 0 := hi ▸ h
      simp only [State.memRead, hj, if_false, State.memWrite_cfg]
    · simp [State.memWrite, hi]
  | output =>
    by_cases h0 : i = 0
    · have hj : j ≠ 0 := h0 ▸ h
      simp [State.memRead, State.memWrite, h0, hj]
    · by_cases h1 : i = 1
      · have hj : j ≠ 1 := h1 ▸ h
        simp [State.memRead, State.memWrite, h1, hj]
      · simp [State.memWrite, h0, h1]

/-- Settles O36: the slot written for each space, and the other slots by whether they are of another
space or of the same one. -/
theorem slotReadAfterWrite : Obligations.SlotReadAfterWrite := by
  refine ⟨fun _ _ x hi => State.memRead_memWrite_fifo x hi,
    fun s x => s.memRead_memWrite_devLatch x,
    fun s _ x hi => s.memRead_memWrite_output x hi, fun s sp sp' i j x h => ?_⟩
  by_cases hsp : sp' = sp
  · subst hsp
    exact s.memRead_memWrite_of_slot_ne sp' x (h.resolve_left (fun hne => hne rfl))
  · exact s.memRead_memWrite_of_space_ne i j x hsp

end Sys2Proof.Machine
end

section
/-! PROOF. The operations and the items not yet taken (R57): every operation commutes with replacing
those items, whatever its outcome. -/

namespace Sys2Proof.Machine

/-- `s` with other items not yet taken. -/
def State.withInput (s : State) (ds : List Datum) : State := { s with input := ds }

/-- An outcome with other items not yet taken in its next state. -/
def withInputOut (ds : List Datum) : Out → Out
  | .next s => .next (s.withInput ds)
  | .fault r => .fault r
  | .refused r => .refused r

/-! ### The parts of an operation -/

section
variable (s : State) (ds : List Datum)

theorem State.whenEnabled_withInput (body : Out) :
    (s.withInput ds).whenEnabled (withInputOut ds body) =
      withInputOut ds (s.whenEnabled body) := by
  simp only [State.whenEnabled, apply_ite (withInputOut ds)]
  rfl

theorem State.openWindow_withInput (d : Dir) :
    (s.withInput ds).openWindow d = (s.openWindow d).withInput ds := by
  simp only [State.openWindow, apply_ite (State.withInput · ds)]
  rfl

theorem State.inject_withInput (sampled : Bool) :
    (s.withInput ds).inject sampled = (s.inject sampled).withInput ds := by
  simp only [State.inject, apply_ite (State.withInput · ds)]
  rfl

theorem State.armSample_withInput (sampled : Bool) (t : Nat) :
    (s.withInput ds).armSample sampled t = (s.armSample sampled t).withInput ds := by
  simp only [State.armSample, apply_ite (State.withInput · ds)]
  rfl

theorem State.takeEdge_withInput (l : Bit) (t : Nat) :
    (s.withInput ds).takeEdge l t = (s.takeEdge l t).withInput ds := by
  have hrecord : (s.withInput ds).recordEdge l t = (s.recordEdge l t).withInput ds := rfl
  have hclassify : (s.withInput ds).classify l t = s.classify l t := rfl
  have hcfg : (s.withInput ds).cfg = s.cfg := rfl
  simp only [State.takeEdge, hrecord, hclassify, hcfg, State.openWindow_withInput,
    State.inject_withInput, State.armSample_withInput]

theorem State.takeSample_withInput (b : Bit) :
    (s.withInput ds).takeSample b = (s.takeSample b).withInput ds := by
  rw [State.takeSample_eq, State.takeSample_eq]
  rfl

theorem State.takeTick_withInput (t : Nat) :
    (s.withInput ds).takeTick t = (s.takeTick t).withInput ds := by
  simp only [State.takeTick, State.handOff_eq, apply_ite (State.withInput · ds)]
  rfl

/-! ### The operations -/

theorem execEdge_withInput (l : Bit) (t : Nat) :
    execEdge l t (s.withInput ds) = withInputOut ds (execEdge l t s) := by
  rw [execEdge, execEdge, ← State.whenEnabled_withInput]
  simp only [apply_ite (withInputOut ds), State.takeEdge_withInput]
  rfl

theorem execSample_withInput (b : Bit) :
    execSample b (s.withInput ds) = withInputOut ds (execSample b s) := by
  rw [execSample, execSample, ← State.whenEnabled_withInput]
  simp only [apply_ite (withInputOut ds), State.takeSample_withInput]
  rfl

theorem execTick_withInput (t : Nat) :
    execTick t (s.withInput ds) = withInputOut ds (execTick t s) := by
  rw [execTick, execTick, ← State.whenEnabled_withInput]
  simp only [apply_ite (withInputOut ds), State.takeTick_withInput]
  rfl

theorem execPopPanel_withInput :
    execPopPanel (s.withInput ds) = withInputOut ds (execPopPanel s) := by
  rw [execPopPanel, execPopPanel, ← State.whenEnabled_withInput]
  simp only [apply_ite (withInputOut ds)]
  rfl

theorem execPopDevice_withInput :
    execPopDevice (s.withInput ds) = withInputOut ds (execPopDevice s) := by
  rw [execPopDevice, execPopDevice, ← State.whenEnabled_withInput]
  simp only [apply_ite (withInputOut ds)]
  rfl

theorem State.stage_withInput (ks : List Byte) :
    (s.withInput ds).stage ks = withInputOut ds (s.stage ks) := by
  rw [State.stage, State.stage, ← State.whenEnabled_withInput]
  simp only [apply_ite (withInputOut ds)]
  rfl

/-- Replacing the items not yet taken replaces them in the outcome, and does nothing else to it. -/
theorem exec_withInput (i : Instr) :
    exec i (s.withInput ds) = withInputOut ds (exec i s) := by
  cases i with
  | init w => exact s.whenEnabled_withInput ds (.next (s.afterInit w))
  | edge l t => exact execEdge_withInput s ds l t
  | sample b => exact execSample_withInput s ds b
  | tick t => exact execTick_withInput s ds t
  | popPanel => exact execPopPanel_withInput s ds
  | popDevice => exact execPopDevice_withInput s ds
  | clrDovf => exact s.whenEnabled_withInput ds (.next s.clearDataOverflow)
  | clrBovf => exact s.whenEnabled_withInput ds (.next s.clearBufferOverflow)
  | stageKey k => exact s.stage_withInput ds [k]
  | stageSeq ks => exact s.stage_withInput ds ks

end

/-- Settles O10: replacing the items by themselves shows that the operation leaves them alone. -/
theorem operationsIgnoreTheInput : Obligations.OperationsIgnoreTheInput := by
  intro i s s' ds h
  have hreplace (es : List Datum) : exec i (s.withInput es) = .next (s'.withInput es) := by
    rw [exec_withInput, h]
    rfl
  refine ⟨?_, hreplace ds⟩
  have hself : s' = s'.withInput s.input :=
    Host.Outcome.next.inj (h.symm.trans (hreplace s.input))
  rw [hself]
  rfl

end Sys2Proof.Machine
end

section
/-! PROOF. The bits of a frame (R84), appended one by one to an empty framer, assemble to the frame's
bytes (R71, R72, R98, R99). -/

namespace Sys2Proof.Machine

/-! ### Bits in order -/

/-- The framer with a sequence of bits appended in order. -/
def Framer.appendAll (f : Framer) (c : Config) (bits : List Bit) : Framer :=
  bits.foldl (fun g b => g.append c b) f

@[simp] theorem Framer.appendAll_nil (f : Framer) (c : Config) : f.appendAll c [] = f := rfl

@[simp] theorem Framer.appendAll_cons (f : Framer) (c : Config) (b : Bit) (bs : List Bit) :
    f.appendAll c (b :: bs) = (f.append c b).appendAll c bs := rfl

theorem Framer.appendAll_append (f : Framer) (c : Config) (bs bs' : List Bit) :
    f.appendAll c (bs ++ bs') = (f.appendAll c bs).appendAll c bs' := List.foldl_append

/-! ### A byte in progress -/

/-- The byte in progress after the first `p` bits of `b` (R98): its top bits when the most significant
bit comes first, its low bits otherwise. -/
def partialByte (order : BitOrder) (b : Byte) (p : Nat) : Byte :=
  match order with
  | .msbFirst => b >>> (8 - p)
  | .lsbFirst => (b.setWidth p).setWidth 8

theorem partialByte_zero (order : BitOrder) (b : Byte) : partialByte order b 0 = 0#8 := by
  cases order
  · exact BitVec.ushiftRight_eq_zero le_rfl
  · apply BitVec.eq_of_getLsbD_eq
    simp [partialByte]

theorem partialByte_eight (order : BitOrder) (b : Byte) : partialByte order b 8 = b := by
  cases order <;> simp [partialByte]

theorem zextBit_getLsbD (b : Bit) (i : Nat) : (zextBit b).getLsbD i = (decide (i = 0) && b) := by
  cases i <;> simp [zextBit]

/-- Placing the next bit of `b` gives the next part of `b`. -/
theorem placeBit_partialByte (order : BitOrder) (b : Byte) {p : Nat} (hp : p < 8) :
    placeBit order (partialByte order b p) p (keyBit order b p) = partialByte order b (p + 1) := by
  apply BitVec.eq_of_getLsbD_eq
  intro i hi
  cases order with
  | msbFirst =>
    simp only [placeBit, partialByte, keyBit, BitVec.getLsbD_or, BitVec.getLsbD_shiftLeft,
      BitVec.getLsbD_ushiftRight, zextBit_getLsbD]
    obtain rfl | hpos := Nat.eq_zero_or_pos i
    · simp
    · have hidx : 8 - p + (i - 1) = 8 - (p + 1) + i := by omega
      have h0 : i ≠ 0 := by omega
      have h1 : ¬ i < 1 := by omega
      simp [hi, hidx, h0, h1]
  | lsbFirst =>
    simp only [placeBit, partialByte, keyBit, BitVec.getLsbD_or, BitVec.getLsbD_shiftLeft,
      BitVec.getLsbD_setWidth, zextBit_getLsbD]
    obtain hlt | rfl | hgt := Nat.lt_trichotomy i p
    · simp [hi, hlt, hlt.trans (Nat.lt_succ_self p)]
    · simp [hi]
    · have h1 : ¬ i < p := by omega
      have h2 : ¬ i < p + 1 := by omega
      have h3 : i - p ≠ 0 := by omega
      simp [h1, h2, h3]

/-- Byte 1 holds one bit, so its first bit is the whole byte, in either order (R71). -/
theorem placeBit_stopByte (order : BitOrder) {b : Byte} (hb : b ≤ 1#8) :
    placeBit order 0#8 0 (b.getLsbD 0) = b := by
  have hcases : b = 0#8 ∨ b = 1#8 := by bv_omega
  obtain rfl | rfl := hcases <;> cases order <;> rfl

/-! ### A framer in a frame -/

/-- The framer that has taken the bits of the complete bytes `bytes` and no others. -/
def Framer.holding (c : Config) (bytes : List Byte) : Framer where
  buf := bytes ++ List.replicate (c.maxFrameBytes - bytes.length) 0#8
  byteCount := bytes.length
  bitInByte := 0
  bitCount := stored bytes.length
  trunc := false

/-- The framer that has taken the bits of `bytes` and then the first `p` bits of a byte, which make
`y`. -/
def Framer.within (c : Config) (bytes : List Byte) (y : Byte) (p : Nat) : Framer where
  buf := bytes ++ y :: List.replicate (c.maxFrameBytes - (bytes.length + 1)) 0#8
  byteCount := bytes.length
  bitInByte := p
  bitCount := stored bytes.length + p
  trunc := false

theorem Framer.holding_eq_within {c : Config} {bytes : List Byte}
    (h : bytes.length < c.maxFrameBytes) :
    Framer.holding c bytes = Framer.within c bytes 0#8 0 := by
  have hroom : c.maxFrameBytes - bytes.length = c.maxFrameBytes - (bytes.length + 1) + 1 := by
    omega
  simp only [Framer.holding, Framer.within, hroom, List.replicate_succ, Nat.add_zero]

/-- A frame that fits its buffer has fewer bits than BitCountMax (R8, R73). -/
theorem stored_lt_bitCountMax {c : Config} (hw : c.wf = true) {n p : Nat}
    (hn : n < c.maxFrameBytes) (hp : p < 8) : stored n + p < Config.bitCountMax := by
  obtain ⟨⟨-, hmax⟩, -⟩ := c.wf_iff.mp hw
  unfold stored Config.bitCountMax
  split_ifs <;> omega

theorem Framer.within_count {c : Config} (hw : c.wf = true) {bytes : List Byte} (y : Byte) {p : Nat}
    (hlen : bytes.length < c.maxFrameBytes) (hp : p < 8) :
    (Framer.within c bytes y p).count =
      { Framer.within c bytes y p with bitCount := stored bytes.length + (p + 1) } := by
  simp [Framer.count, Framer.within, stored_lt_bitCountMax hw hlen hp, Nat.add_assoc]

/-- A bit that arrives within a byte is placed in it, and completes it when it is its last. -/
theorem Framer.within_append {c : Config} (hw : c.wf = true) {bytes : List Byte} {y : Byte}
    {p : Nat} (hlen : bytes.length < c.maxFrameBytes) (hp : p < 8) (hy : p = 0 → y = 0#8) (b : Bit) :
    (Framer.within c bytes y p).append c b =
      if p + 1 = byteWidth bytes.length then
        Framer.holding c (bytes ++ [placeBit c.bitOrder y p b])
      else Framer.within c bytes (placeBit c.bitOrder y p b) (p + 1) := by
  have hbyte : (if p = 0 then 0#8 else y) = y := by
    split
    · exact (hy ‹_›).symm
    · rfl
  obtain ⟨htr, -⟩ | ⟨-, hfull, -⟩ | ⟨-, -, heq⟩ := (Framer.within c bytes y p).append_cases c b
  · exact nomatch htr
  · exact absurd hfull hlen.ne
  · rw [heq, Framer.within_count hw y hlen hp, Framer.place_eq]
    by_cases hlast : p + 1 = byteWidth bytes.length
    · simp [Framer.within, Framer.holding, hbyte, hlast, stored_succ]
    · simp [Framer.within, hbyte, hlast]

/-! ### A byte of a frame -/

/-- The bits of byte `i` of a frame (R84). -/
def bitsOfByte (order : BitOrder) (i : Nat) (b : Byte) : List Bit :=
  if i = 1 then [b.getLsbD 0] else byteBits order b

theorem frameBitsFrom_cons (order : BitOrder) (i : Nat) (b : Byte) (bs : List Byte) :
    frameBitsFrom order i (b :: bs) = bitsOfByte order i b ++ frameBitsFrom order (i + 1) bs := rfl

theorem bitsOfByte_length (order : BitOrder) (i : Nat) (b : Byte) :
    (bitsOfByte order i b).length = byteWidth i := by
  unfold bitsOfByte byteWidth
  split <;> simp [byteBits]

theorem frameBitsFrom_length (order : BitOrder) (i : Nat) (bs : List Byte) :
    stored i + (frameBitsFrom order i bs).length = stored (i + bs.length) := by
  induction bs generalizing i with
  | nil => rfl
  | cons b bs ih =>
    rw [frameBitsFrom_cons, List.length_append, bitsOfByte_length, ← Nat.add_assoc, ← stored_succ,
      ih, List.length_cons, Nat.add_right_comm, Nat.add_assoc]

/-- The first bits of an eight-bit byte leave the framer within that byte. -/
theorem Framer.appendAll_keyBits {c : Config} (hw : c.wf = true) {bytes : List Byte}
    (hlen : bytes.length < c.maxFrameBytes) (hbyte : bytes.length ≠ 1) (b : Byte) {p : Nat}
    (hp : p < 8) :
    (Framer.holding c bytes).appendAll c ((List.range p).map (keyBit c.bitOrder b)) =
      Framer.within c bytes (partialByte c.bitOrder b p) p := by
  induction p with
  | zero => rw [partialByte_zero]; exact Framer.holding_eq_within hlen
  | succ p ih =>
    have hlast : p + 1 ≠ byteWidth bytes.length := by
      rw [byteWidth, if_neg hbyte]
      exact hp.ne
    have hp' : p < 8 := Nat.lt_of_succ_lt hp
    have hy : p = 0 → partialByte c.bitOrder b p = 0#8 := fun h0 => by
      rw [h0, partialByte_zero]
    rw [List.range_succ, List.map_append, Framer.appendAll_append, ih hp', List.map_singleton,
      Framer.appendAll_cons, Framer.appendAll_nil, Framer.within_append hw hlen hp' hy,
      if_neg hlast, placeBit_partialByte _ _ hp']

/-- The bits of the next byte complete it. -/
theorem Framer.appendAll_bitsOfByte {c : Config} (hw : c.wf = true) {bytes : List Byte}
    (hlen : bytes.length < c.maxFrameBytes) {b : Byte} (hstop : bytes.length = 1 → b ≤ 1#8) :
    (Framer.holding c bytes).appendAll c (bitsOfByte c.bitOrder bytes.length b) =
      Framer.holding c (bytes ++ [b]) := by
  by_cases h1 : bytes.length = 1
  · have hwidth : 0 + 1 = byteWidth bytes.length := by rw [h1]; rfl
    rw [bitsOfByte, if_pos h1, Framer.appendAll_cons, Framer.appendAll_nil,
      Framer.holding_eq_within hlen, Framer.within_append hw hlen (by omega) (fun _ => rfl), if_pos hwidth,
      placeBit_stopByte _ (hstop h1)]
  · have hwidth : 7 + 1 = byteWidth bytes.length := by rw [byteWidth, if_neg h1]
    rw [bitsOfByte, if_neg h1, byteBits, List.range_succ, List.map_append, Framer.appendAll_append,
      Framer.appendAll_keyBits hw hlen h1 b (by omega), List.map_singleton, Framer.appendAll_cons,
      Framer.appendAll_nil, Framer.within_append hw hlen (by omega) (by omega), if_pos hwidth,
      placeBit_partialByte _ _ (by omega), partialByte_eight]

/-! ### A frame -/

theorem Framer.appendAll_frameBitsFrom {c : Config} (hw : c.wf = true) (bytes bs : List Byte)
    (hlen : (bytes ++ bs).length ≤ c.maxFrameBytes) (hstop : (bytes ++ bs).getD 1 0#8 ≤ 1#8) :
    (Framer.holding c bytes).appendAll c (frameBitsFrom c.bitOrder bytes.length bs) =
      Framer.holding c (bytes ++ bs) := by
  induction bs generalizing bytes with
  | nil => rw [List.append_nil]; rfl
  | cons b bs ih =>
    have hroom : bytes.length < c.maxFrameBytes := by
      rw [List.length_append, List.length_cons] at hlen
      omega
    have hb : bytes.length = 1 → b ≤ 1#8 := fun h1 => by
      simpa [List.getD, List.getElem?_append_right h1.le, h1] using hstop
    have hnext : bytes ++ b :: bs = (bytes ++ [b]) ++ bs := by simp
    rw [frameBitsFrom_cons, Framer.appendAll_append, Framer.appendAll_bitsOfByte hw hroom hb, hnext]
    have hsucc : bytes.length + 1 = (bytes ++ [b]).length := by simp
    rw [hsucc]
    exact ih (bytes ++ [b]) (hnext ▸ hlen) (hnext ▸ hstop)

/-- What FRAMEBITS gives, when it is not refused (R84). -/
theorem frameBits_eq_ok {c : Config} {bytes : List Byte} {bits : List Bit}
    (h : frameBits c bytes = .ok bits) :
    bytes.getD 1 0#8 ≤ 1#8 ∧ bits = frameBitsFrom c.bitOrder 0 bytes := by
  unfold frameBits at h
  split at h
  · cases h
    exact ⟨‹_›, rfl⟩
  · cases h

theorem frameBits_length {c : Config} {bytes : List Byte} {bits : List Bit}
    (h : frameBits c bytes = .ok bits) : bits.length = stored bytes.length := by
  obtain ⟨-, rfl⟩ := frameBits_eq_ok h
  simpa [stored] using frameBitsFrom_length c.bitOrder 0 bytes

/-- The bits of a frame that fits the buffer assemble to its bytes. -/
theorem Framer.appendAll_frameBits {c : Config} (hw : c.wf = true) {bytes : List Byte}
    {bits : List Bit} (hlen : bytes.length ≤ c.maxFrameBytes) (h : frameBits c bytes = .ok bits) :
    (Framer.empty c).appendAll c bits = Framer.holding c bytes := by
  obtain ⟨hstop, rfl⟩ := frameBits_eq_ok h
  exact Framer.appendAll_frameBitsFrom hw [] bytes hlen hstop

end Sys2Proof.Machine
end

section
/-! PROOF. The path of a panel frame (R65): INIT, the clocked bits (R83), the TICK that hands the frame
off (R112), and the POP_PANEL that delivers it (R121). -/

namespace Sys2Proof.Machine

/-! ### One clocked bit -/

/-- A state between two bits of a clocked panel frame: its next edge, of level `l` at time `t`, is a
transition, `dt` after the last one, and the last sample has been taken. -/
structure State.BetweenBits (s : State) (l : Bit) (t dt : Nat) : Prop where
  live : s.Live
  bound : s.ctl.bound = true
  idle : s.samp.pending = false
  dir : s.edge.dir = .panel
  clk : s.edge.clk ≠ some l
  lastEdge : ∀ e, s.edge.tLastEdge = some e → e + dt = t
  lastEvent : ∀ u, s.edge.tLastEvent = some u → u + dt = t + s.cfg.sampleOffset
  lastRise : l = false → ∀ r, s.edge.tLastRise = some r → r + dt = t
  bitHasEdge : 0 < s.panel.bitCount → ∃ e, s.edge.tLastEdge = some e

/-- The high period before a falling edge is not above Lh, so the edge is a panel edge (R91). -/
theorem State.BetweenBits.classify {s : State} {l : Bit} {t dt : Nat} (h : s.BetweenBits l t dt)
    (hhigh : dt ≤ s.cfg.longHighThreshold) : s.classify l t = .panel := by
  cases hc : s.classify l t with
  | panel => rfl
  | device =>
    obtain hdev | ⟨hl, r, hr, hlong⟩ := (s.classify_eq_device l t).mp hc
    · exact nomatch h.dir.symm.trans hdev
    · have := h.lastRise hl r hr
      omega

theorem State.BetweenBits.exec_edge {s : State} {l : Bit} {t dt : Nat} (h : s.BetweenBits l t dt)
    (hdt : s.cfg.sampleOffset < dt) : exec (.edge l t) s = .next (s.takeEdge l t) := by
  refine execEdge_taken h.live h.bound h.idle ((laterThan_eq_false _ t).mpr fun u hu => ?_) h.clk
  have := h.lastEvent u hu
  omega

theorem exec_sample_of_pending {s : State} (hl : s.Live) (hp : s.samp.pending = true) (b : Bit) :
    exec (.sample b) s = .next (s.takeSample b) := by
  rw [exec, execSample, State.whenEnabled_of_live hl, if_pos hp]

/-- The state after a panel edge and its sample. -/
def State.clockBit (s : State) (l : Bit) (t : Nat) (b : Bit) : State :=
  (s.takeEdge l t).takeSample b

theorem State.clockBit_eq {s : State} {l : Bit} {t : Nat} (hs : Config.samples s.cfg l = true)
    (hc : s.classify l t = .panel) (b : Bit) :
    s.clockBit l t b = { s with
      edge :=
        { clk := some l, tLastEdge := some t, tLastEvent := some (t + s.cfg.sampleOffset)
          tLastRise := if l then some t else s.edge.tLastRise, dir := .panel }
      samp := { pending := false, due := t + s.cfg.sampleOffset, dir := .panel }
      panel := s.panel.append s.cfg b
      flags := if s.panel.overflows s.cfg then { s.flags with dataOverflow := true } else s.flags
      inj := (s.takeEdge l t).inj } := by
  rw [State.clockBit, State.takeSample_eq, s.takeEdge_samp, s.takeEdge_edge, if_pos hs, hc,
    s.takeEdge_frame]
  rfl

/-- A bit is clocked by its edge and its sample. -/
theorem State.BetweenBits.runOps_bit {s : State} {l : Bit} {t dt : Nat} (h : s.BetweenBits l t dt)
    (hdt : s.cfg.sampleOffset < dt) (hs : Config.samples s.cfg l = true) (b : Bit)
    (rest : List Instr) :
    runOps (.edge l t :: .sample b :: rest) s = runOps rest (s.clockBit l t b) := by
  have hlive : (s.takeEdge l t).Live := by
    obtain ⟨hw, hf⟩ := h.live
    exact ⟨by rwa [s.takeEdge_cfg], (s.takeEdge_fault l t).trans hf⟩
  have hpend : (s.takeEdge l t).samp.pending = true := by rw [s.takeEdge_samp, if_pos hs]
  rw [runOps_cons_of_next (h.exec_edge hdt),
    runOps_cons_of_next (exec_sample_of_pending hlive hpend b), State.clockBit]

/-- The next bit finds the state between bits again. -/
theorem State.BetweenBits.clockBit {s : State} {l : Bit} {t dt : Nat} (h : s.BetweenBits l t dt)
    (hhigh : dt ≤ s.cfg.longHighThreshold) (hs : Config.samples s.cfg l = true) (b : Bit) :
    (s.clockBit l t b).BetweenBits (!l) (t + dt) dt := by
  rw [State.clockBit_eq hs (h.classify hhigh)]
  exact {
    live := h.live
    bound := h.bound
    idle := rfl
    dir := rfl
    clk := by simp
    lastEdge := fun e he => by cases he; rfl
    lastEvent := fun u hu => by cases hu; exact Nat.add_right_comm ..
    lastRise := fun hl r hr => by
      have hrise : l = true := by simpa using hl
      simp only [hrise, if_true, Option.some.injEq] at hr
      rw [hr]
    bitHasEdge := fun _ => ⟨t, rfl⟩ }

/-! ### The clocked bits of a frame -/

/-- A truncated frame stays truncated (R97). -/
theorem Framer.appendAll_trunc {f : Framer} {c : Config} (h : f.trunc = true) (bits : List Bit) :
    (f.appendAll c bits).trunc = true := by
  induction bits generalizing f with
  | nil => exact h
  | cons b bs ih =>
    have hnext : (f.append c b).trunc = true := by
      rw [Framer.append, if_pos h]
      exact h
    exact ih hnext

/-- A bit that overflows truncates its frame (R97). -/
theorem Framer.append_trunc_of_overflows {f : Framer} {c : Config} (h : f.overflows c = true)
    (b : Bit) : (f.append c b).trunc = true := by
  simp only [Framer.overflows, Bool.and_eq_true, Bool.not_eq_true', decide_eq_true_eq] at h
  obtain ⟨htrunc, hfull⟩ := h
  simp [Framer.append, htrunc, hfull]

/-- `s'` is `s` with `bits` captured in the panel framer, and nothing else stored. -/
structure State.CapturedInto (s s' : State) (bits : List Bit) : Prop where
  cfg : s'.cfg = s.cfg
  queue : s'.queue = s.queue
  panel : s'.panel = s.panel.appendAll s.cfg bits
  flags : (s.panel.appendAll s.cfg bits).trunc = false → s'.flags = s.flags

/-- A bit clocked before other bits. -/
theorem State.CapturedInto.cons {s s' : State} {l : Bit} {t : Nat} {b : Bit} {bs : List Bit}
    (hs : Config.samples s.cfg l = true) (hc : s.classify l t = .panel)
    (h : (s.clockBit l t b).CapturedInto s' bs) : s.CapturedInto s' (b :: bs) := by
  rw [State.clockBit_eq hs hc] at h
  obtain ⟨hcfg, hqueue, hpanel, hflags⟩ := h
  refine ⟨hcfg, hqueue, hpanel, fun htrunc => (hflags htrunc).trans (if_neg fun hover => ?_)⟩
  have := Framer.appendAll_trunc (c := s.cfg) (Framer.append_trunc_of_overflows hover b) bs
  exact nomatch this.symm.trans htrunc

/-- The bits of a CLOCKBITS with no long high period, by induction on the bits. -/
theorem State.BetweenBits.runOps_clockBitsFrom {s : State} {l : Bit} {t dt : Nat}
    (h : s.BetweenBits l t dt) (hdt : s.cfg.sampleOffset < dt)
    (hhigh : dt ≤ s.cfg.longHighThreshold) (hs : ∀ l, Config.samples s.cfg l = true)
    (bits : List Bit) :
    ∃ s' l', runOps (clockBitsFrom l t dt bits) s = .next s' ∧
      s'.BetweenBits l' (t + bits.length * dt) dt ∧ s.CapturedInto s' bits := by
  induction bits generalizing s l t with
  | nil => exact ⟨s, l, rfl, by simpa using h, ⟨rfl, rfl, rfl, fun _ => rfl⟩⟩
  | cons b bs ih =>
    have hcfg : (s.clockBit l t b).cfg = s.cfg := by
      rw [State.clockBit, State.takeSample_cfg, State.takeEdge_cfg]
    obtain ⟨s', l', hrun, hbetween, hcapt⟩ := ih (h.clockBit hhigh (hs l) b) (by rwa [hcfg])
      (by rwa [hcfg]) (by rwa [hcfg])
    have htime : t + dt + bs.length * dt = t + (b :: bs).length * dt := by
      rw [List.length_cons, Nat.succ_mul]
      omega
    exact ⟨s', l', (h.runOps_bit hdt (hs l) b _).trans hrun, htime ▸ hbetween,
      hcapt.cons (hs l) (h.classify hhigh)⟩

/-! ### The hand-off and the poll -/

/-- A TICK more than Ti after the last edge of a captured frame hands it off (R111). -/
theorem State.BetweenBits.exec_tick {s : State} {l : Bit} {t dt t' : Nat}
    (h : s.BetweenBits l t dt) (hbits : 0 < s.panel.bitCount)
    (hidle : t + s.cfg.idleThreshold < t' + dt) :
    exec (.tick t') s = .next (s.stampEvent t').handOff := by
  obtain ⟨e, he⟩ := h.bitHasEdge hbits
  have hedge := h.lastEdge e he
  obtain ⟨-, -, ⟨-, hoffset⟩, -⟩ := s.cfg.wf_iff.mp h.live.1
  have hdue : s.sampleDueBy t' = false := by simp [State.sampleDueBy, h.idle]
  have hlate : laterThan s.edge.tLastEvent t' = false := (laterThan_eq_false _ t').mpr fun u hu => by
    have := h.lastEvent u hu
    omega
  have hends : s.frameEnds t' = true :=
    (s.frameEnds_iff t').mpr ⟨⟨e, he, by omega⟩, .inl hbits⟩
  obtain ⟨hnot, -⟩ | ⟨-, htick⟩ := s.takeTick_cases t'
  · exact nomatch hends.symm.trans hnot
  · exact (execTick_taken h.live h.bound hdue hlate).trans (congrArg _ htick)

/-- A hand-off to an empty FIFO puts the panel frame at head, and sets no flag (R112, R113). -/
theorem State.handOff_to_empty {s : State} (hq : s.queue.Inv s.cfg) (hempty : s.queue.count = 0)
    (hbits : 0 < s.panel.bitCount) :
    s.handOff.memRead .fifo s.handOff.queue.head = s.panel.slot ∧ s.handOff.queue.count = 1 ∧
    s.handOff.flags = s.flags := by
  have hroom : 0 < s.cfg.queueCapacity := Nat.zero_lt_of_lt hq.headLt
  have hhead : s.queue.head < s.queue.fifo.length := hq.size ▸ hq.headLt
  rw [State.handOff_eq]
  simp [State.memRead, hbits, hempty, hroom, Nat.mod_eq_of_lt hq.headLt, hhead]

theorem exec_popPanel_of_pos {s : State} (hl : s.Live) (hb : s.ctl.bound = true)
    (hpos : 0 < s.queue.count) :
    exec .popPanel s = .next { s.takePanel with
      result := some (verdict (validate s.cfg (s.memRead .fifo s.queue.head))) } := by
  rw [exec, execPopPanel, State.whenEnabled_of_live hl]
  simp [hb, hpos.ne', State.answer]

/-- `s'` is a state in which a poll has delivered the slot `x` from a FIFO that held no other. -/
structure State.Delivered (s' : State) (c : Config) (x : Slot) : Prop where
  fault : s'.fault = none
  panelOut : s'.out.panelOut = x
  valid : s'.out.panelOutValid = validate c x
  result : s'.result = some (verdict (validate c x))
  empty : s'.queue.count = 0

/-- The TICK that ends a captured frame, and the poll after it. -/
theorem State.BetweenBits.runOps_tick_popPanel {s : State} {l : Bit} {t dt t' : Nat}
    (h : s.BetweenBits l t dt) (hbits : 0 < s.panel.bitCount)
    (hidle : t + s.cfg.idleThreshold < t' + dt) (hq : s.queue.Inv s.cfg)
    (hempty : s.queue.count = 0) :
    ∃ s', runOps [.tick t', .popPanel] s = .next s' ∧ s'.Delivered s.cfg s.panel.slot ∧
      s'.flags = s.flags := by
  obtain ⟨hslot, hcount, hflags⟩ :=
    State.handOff_to_empty (s := s.stampEvent t') hq hempty hbits
  have hcfg : (s.stampEvent t').handOff.cfg = s.cfg := by simp
  have hlive : (s.stampEvent t').handOff.Live := by
    obtain ⟨hw, hf⟩ := h.live
    exact ⟨by rwa [hcfg], by simpa using hf⟩
  have hbound : (s.stampEvent t').handOff.ctl.bound = true := by simpa using h.bound
  have hpop := exec_popPanel_of_pos hlive hbound (hcount ▸ Nat.one_pos)
  rw [hslot, hcfg, State.stampEvent_panel] at hpop
  refine ⟨_, (runOps_cons_of_next (h.exec_tick hbits hidle)).trans (runOps_cons_of_next hpop),
    ⟨?_, ?_, ?_, rfl, ?_⟩, ?_⟩
  · exact hlive.2
  · simpa using hslot
  · simp [hslot]
  · simp [hcount]
  · simpa using hflags

/-! ### The whole path -/

theorem exec_init_of_live {s : State} (hl : s.Live) (w : Bit) :
    exec (.init w) s = .next (s.afterInit w) := State.whenEnabled_of_live hl _

/-- After INIT no edge, no event and no bit has been seen, so any bit may come first. -/
theorem State.afterInit_betweenBits {s : State} (hl : s.Live) (w l : Bit) (t dt : Nat) :
    (s.afterInit w).BetweenBits l t dt where
  live := hl
  bound := rfl
  idle := rfl
  dir := rfl
  clk h := nomatch h
  lastEdge _ h := nomatch h
  lastEvent _ h := nomatch h
  lastRise _ _ h := nomatch h
  bitHasEdge h := nomatch h

/-- What CLOCKBITS gives, when it is not refused (R83). -/
theorem clockBits_eq_ok {c : Config} {l : Bit} {t dt : Nat} {bits : List Bit} {ops : List Instr}
    (h : clockBits c l t dt bits = .ok ops) :
    (∀ l, Config.samples c l = true) ∧ c.sampleOffset < dt ∧ ops = clockBitsFrom l t dt bits := by
  unfold clockBits at h
  split at h
  · rename_i hcond
    simp only [Bool.and_eq_true, decide_eq_true_eq] at hcond
    obtain ⟨⟨hrise, hfall⟩, hdt⟩ := hcond
    cases h
    exact ⟨fun l => by cases l <;> assumption, hdt, rfl⟩
  · cases h

/-- After INIT, the clocked bits of a frame leave its bytes in the panel framer, an empty FIFO and both
flags 0. -/
theorem runOps_init_clockedFrame {s : State} (hl : s.Live) (w l : Bit) (t : Nat) {dt : Nat}
    {bytes : List Byte} {bits : List Bit} (hfits : bytes.length ≤ s.cfg.maxFrameBytes)
    (hbits : frameBits s.cfg bytes = .ok bits) (hdt : s.cfg.sampleOffset < dt)
    (hhigh : dt ≤ s.cfg.longHighThreshold) (hs : ∀ l, Config.samples s.cfg l = true) :
    ∃ s' l', runOps ([.init w] ++ clockBitsFrom l t dt bits) s = .next s' ∧
      s'.BetweenBits l' (t + bits.length * dt) dt ∧ s'.cfg = s.cfg ∧
      s'.panel = Framer.holding s.cfg bytes ∧ s'.queue = (State.resetWith s.cfg).queue ∧
      s'.flags = (State.resetWith s.cfg).flags := by
  obtain ⟨s', l', hclock, hbetween, hcfg, hqueue, hpanel, hflags⟩ :=
    (State.afterInit_betweenBits hl w l t dt).runOps_clockBitsFrom hdt hhigh hs bits
  have hframe : (s.afterInit w).panel.appendAll (s.afterInit w).cfg bits =
      Framer.holding s.cfg bytes := Framer.appendAll_frameBits hl.1 hfits hbits
  rw [hframe] at hpanel hflags
  exact ⟨s', l', (runOps_cons_of_next (exec_init_of_live hl w)).trans hclock, hbetween, hcfg, hpanel,
    hqueue, hflags rfl⟩

/-- Settles O54: after INIT the clocked bits leave the frame in the panel framer, which the TICK hands
off and the poll delivers. -/
theorem aFrameOnTheBusIsDelivered : Obligations.AFrameOnTheBusIsDelivered := by
  intro s w l t0 dt t bytes bits ops hl _ _ hthree hfits hbits hops hhigh hidle x
  obtain ⟨hsampled, hdt, rfl⟩ := clockBits_eq_ok hops
  have hlength : bits.length = stored bytes.length := frameBits_length hbits
  have hpos : 0 < bits.length := by
    rw [hlength, stored]
    split_ifs <;> omega
  obtain ⟨s1, l', hrun, hbetween, hcfg, hpanel, hqueue, hflags⟩ :=
    runOps_init_clockedFrame hl w l t0 hfits hbits hdt hhigh hsampled
  have hslot : s1.panel.slot = x := by
    rw [hpanel]
    simp only [Framer.slot, Framer.holding, x, hlength]
  have hcount : 0 < s1.panel.bitCount := by
    rw [hpanel]
    exact hpos.trans_eq hlength
  have hlast : (bits.length - 1) * dt + dt = bits.length * dt := by
    rw [← Nat.succ_mul, Nat.succ_eq_add_one, Nat.sub_add_cancel hpos]
  have hidle' : t0 + bits.length * dt + s1.cfg.idleThreshold < t + dt := by
    rw [hcfg]
    omega
  have hinv : s1.queue.Inv s1.cfg := by
    rw [hqueue, hcfg]
    exact FrameQueue.inv_empty (s.cfg.wf_iff.mp hl.1).2.1
  obtain ⟨s', hend, hdelivered, hkeep⟩ :=
    hbetween.runOps_tick_popPanel hcount hidle' hinv (by rw [hqueue]; rfl)
  rw [hcfg, hslot] at hdelivered
  exact ⟨s', ⟨(runOps_append _ hrun).trans hend, hdelivered.fault⟩, hdelivered.panelOut,
    hdelivered.valid, hdelivered.result, hdelivered.empty, hkeep.trans hflags⟩

end Sys2Proof.Machine
end

section
/-! PROOF. The decoder and the encoder (R77 to R81): the words of each row of the opcode map, each as
the inverse of the other, and the step from encoded operations (R82, R170). -/

namespace Sys2Proof

/-! ### The words of a row -/

/-- The word of a row of R77: the row's pattern, with the one-bit argument at bit 0 where the row has
one. -/
def Opcode.word (op : Opcode) (b : Bit) : Byte :=
  match op with
  | .init => withArg 0x10#8 b
  | .edge => withArg 0x20#8 b
  | .sample => withArg 0x30#8 b
  | .tick => 0x40#8
  | .popPanel => 0x50#8
  | .popDevice => 0x51#8
  | .clrDovf => 0x61#8
  | .clrBovf => 0x62#8
  | .stageKey => 0x70#8
  | .stageSeq => 0x71#8

theorem withArg_getLsbD (p : Byte) (b : Bit) (i : Nat) :
    (withArg p b).getLsbD i = (p.getLsbD i || (decide (i = 0) && b)) := by
  cases i <;> simp [withArg]

/-- The pattern of a row with an argument has bit 0 clear, so the argument is read back from it. -/
theorem wordArg_withArg {p : Byte} (hp : p.getLsbD 0 = false) (b : Bit) :
    wordArg (withArg p b) = b := by
  rw [wordArg, withArg_getLsbD, hp]
  exact Bool.false_or _

/-- The mask 0xFE leaves out bit 0 and no other bit. -/
theorem withArg_masked (w : Byte) : withArg (w &&& 0xFE#8) (wordArg w) = w := by
  have hmask : ∀ i < 8, (0xFE#8).getLsbD i = !decide (i = 0) := by decide
  apply BitVec.eq_of_getLsbD_eq
  intro i hi
  rw [withArg_getLsbD, BitVec.getLsbD_and, hmask i hi, wordArg]
  by_cases h0 : i = 0 <;> simp [h0]

/-- A word that a row of the table accepts is a word of the row. -/
theorem OpcodeRow.eq_word_of_accepts {r : OpcodeRow} (hr : r ∈ opcodeTable) {w : Byte}
    (h : r.accepts w = true) : w = r.op.word (wordArg w) := by
  have hexact {p : Byte} (hp : (w &&& 0xFF#8 == p) = true) : w = p := by
    simpa using BitVec.and_allOnes.symm.trans (beq_iff_eq.mp hp)
  have hmasked {p : Byte} (hp : (w &&& 0xFE#8 == p) = true) : w = withArg p (wordArg w) := by
    rw [← beq_iff_eq.mp hp, withArg_masked]
  simp only [opcodeTable, List.mem_cons, List.not_mem_nil, or_false] at hr
  obtain rfl | rfl | rfl | rfl | rfl | rfl | rfl | rfl | rfl | rfl := hr
  case inl | inr.inl | inr.inr.inl => exact hmasked h
  all_goals exact hexact h

/-- Every word of a row is read as that row. -/
theorem opcodeOf_word (op : Opcode) (b : Bit) : opcodeOf (op.word b) = some op := by
  cases op <;> cases b <;> rfl

/-- Every word that is read as a row is a word of it. -/
theorem eq_word_of_opcodeOf {w : Byte} {op : Opcode} (h : opcodeOf w = some op) :
    w = op.word (wordArg w) := by
  obtain ⟨r, hfind, rfl⟩ := Option.map_eq_some_iff.mp h
  have haccepts : r.accepts w = true := List.find?_some (p := fun r : OpcodeRow => r.accepts w) hfind
  exact OpcodeRow.eq_word_of_accepts (List.mem_of_find?_eq_some hfind) haccepts

/-! ### The operands after a word -/

theorem takeBytes_map (ks : List Byte) (rest : List Datum) :
    takeBytes ks.length (ks.map Datum.byte ++ rest) = some (ks, rest) := by
  induction ks with
  | nil => rfl
  | cons k ks ih => simp [takeBytes, ih]

theorem takeBytes_eq_some {n : Nat} {ds rest : List Datum} {ks : List Byte}
    (h : takeBytes n ds = some (ks, rest)) : ks.length = n ∧ ks.map Datum.byte ++ rest = ds := by
  induction n generalizing ds ks with
  | zero =>
    cases h
    exact ⟨rfl, rfl⟩
  | succ n ih =>
    match ds with
    | [] => cases h
    | .time t :: ds => cases h
    | .byte b :: ds =>
      obtain ⟨⟨bs, ds'⟩, htake, heq⟩ := Option.map_eq_some_iff.mp h
      cases heq
      obtain ⟨hlen, hitems⟩ := ih htake
      exact ⟨congrArg (· + 1) hlen, congrArg (Datum.byte b :: ·) hitems⟩

/-- A key count is a Byte (R78). -/
theorem toNat_keyCount {n : Nat} (h : n ≤ 255) : (BitVec.ofNat 8 n).toNat = n := by
  rw [BitVec.toNat_ofNat]
  omega

/-- The keys of STAGE_SEQ are read as its count says. -/
theorem decodeOperands_stageSeq {n w : Byte} {ds rest : List Datum} {ks : List Byte}
    (h : takeBytes n.toNat ds = some (ks, rest)) :
    decodeOperands .stageSeq w (.byte n :: ds) = .ok (.stageSeq ks, rest) := by
  rw [decodeOperands, h]

/-- The operands that are read are the ones encoded, by the rows of R77. -/
theorem encode_of_decodeOperands {op : Opcode} {w : Byte} {ds rest : List Datum} {i : Instr}
    (hw : w = op.word (wordArg w)) (h : decodeOperands op w ds = .ok (i, rest)) :
    i.wf = true ∧ encode i ++ rest = .byte w :: ds := by
  rw [hw]
  unfold decodeOperands at h
  split at h
  case h_10 n ds =>
    split at h
    · rename_i r htake
      cases h
      obtain ⟨hlen, rfl⟩ := takeBytes_eq_some htake
      have hle : r.1.length ≤ 255 := hlen ▸ Nat.le_of_lt_succ n.isLt
      exact ⟨decide_eq_true hle, by simp [encode, Opcode.word, hlen]⟩
    · cases h
  case h_11 => cases h
  all_goals
    cases h
    exact ⟨rfl, rfl⟩

/-! ### The decoder and the encoder -/

theorem decode_word (op : Opcode) (b : Bit) (ds : List Datum) :
    decode (.byte (op.word b) :: ds) = decodeOperands op (op.word b) ds := by
  rw [decode, opcodeOf_word]

/-- Decoding undoes encoding: the word of each operation is one of its row, and its operands are read
back one by one. -/
theorem decode_encode {i : Instr} (hwf : i.wf = true) (rest : List Datum) :
    decode (encode i ++ rest) = .ok (i, rest) := by
  cases i with
  | init w =>
    refine (decode_word .init w rest).trans ?_
    rw [decodeOperands, Opcode.word, wordArg_withArg rfl]
  | edge l t =>
    refine (decode_word .edge l (.time t :: rest)).trans ?_
    rw [decodeOperands, Opcode.word, wordArg_withArg rfl]
  | sample b =>
    refine (decode_word .sample b rest).trans ?_
    rw [decodeOperands, Opcode.word, wordArg_withArg rfl]
  | tick t => exact decode_word .tick false (.time t :: rest)
  | popPanel => exact decode_word .popPanel false rest
  | popDevice => exact decode_word .popDevice false rest
  | clrDovf => exact decode_word .clrDovf false rest
  | clrBovf => exact decode_word .clrBovf false rest
  | stageKey k => exact decode_word .stageKey false (.byte k :: rest)
  | stageSeq ks =>
    refine (decode_word .stageSeq false _).trans (decodeOperands_stageSeq ?_)
    rw [toNat_keyCount (of_decide_eq_true hwf)]
    exact takeBytes_map ks rest

/-- Settles O1. -/
theorem decodeOfEncodeIsTheOperation : Obligations.DecodeOfEncodeIsTheOperation :=
  fun _ rest hwf => decode_encode hwf rest

/-- Encoding undoes decoding. -/
theorem encode_of_decode {ds rest : List Datum} {i : Instr} (h : decode ds = .ok (i, rest)) :
    i.wf = true ∧ encode i ++ rest = ds := by
  match ds with
  | [] => cases h
  | .time t :: ds => cases h
  | .byte w :: ds =>
    rw [decode] at h
    cases hop : opcodeOf w with
    | none =>
      rw [hop] at h
      cases h
    | some op =>
      rw [hop] at h
      exact encode_of_decodeOperands (eq_word_of_opcodeOf hop) h

/-- Settles O2. -/
theorem encodeOfDecodeIsTheItems : Obligations.EncodeOfDecodeIsTheItems :=
  fun _ _ _ h => encode_of_decode h

/-- What follows an operation has no part in reading it. -/
theorem decode_append {ds rest : List Datum} {i : Instr} (h : decode ds = .ok (i, rest))
    (more : List Datum) : decode (ds ++ more) = .ok (i, rest ++ more) := by
  obtain ⟨hwf, rfl⟩ := encode_of_decode h
  rw [List.append_assoc]
  exact decode_encode hwf (rest ++ more)

end Sys2Proof
end

section
/-! PROOF. Operations given as their encodings, as table words and as reserved words, and the steps that
take them (R80, R82, R170). -/

namespace Sys2Proof.Machine

/-! ### An encoded trace -/

/-- A step takes an operation given by its encoding. -/
theorem step_of_encode {i : Instr} (hwf : i.wf = true) (s : State) (ds : List Datum) :
    step (s.withInput (encode i ++ ds)) = withInputOut ds (exec i s) :=
  (step_of_decode (decode_encode hwf ds)).trans (exec_withInput s ds i)

/-- Settles O7, by induction on the operations: each step takes the first of them and does not read the
items behind it. -/
theorem steppingAnEncodedTraceIsItsRun : Obligations.SteppingAnEncodedTraceIsItsRun := by
  intro ops s rest hwf
  change Host.Core.run core ops.length (s.withInput (encodeAll ops ++ rest)) =
    runOps ops (s.withInput rest)
  induction ops generalizing s with
  | nil => rfl
  | cons i is ih =>
    obtain ⟨hi, his⟩ := List.forall_mem_cons.mp hwf
    have hstep := step_of_encode hi s (encodeAll is ++ rest)
    have hexec := exec_withInput s rest i
    rw [encodeAll, List.flatMap_cons, List.append_assoc, ← encodeAll, List.length_cons, runOps, hexec]
    cases hout : exec i s with
    | next s' =>
      rw [hout] at hstep
      exact (run_succ_of_next is.length hstep).trans (ih s' his)
    | fault r =>
      rw [hout] at hstep
      exact run_succ_of_fault is.length hstep
    | refused r =>
      rw [hout] at hstep
      exact run_succ_of_refused is.length hstep

/-! ### A table word -/

/-- The items of a table word are those of one operation and no others. -/
theorem rest_of_decode_wordItems {nbits w : Nat} {i : Instr} {rest : List Datum}
    (h : decode (wordItems nbits w) = .ok (i, rest)) : rest = [] := by
  simp only [wordItems, decode] at h
  split at h
  · cases h
  · rename_i op hop
    simp only [hop] at h
    cases op with
    | stageSeq =>
      have hkeys (n : Byte) (key : Nat → Byte) :
          takeBytes n.toNat ((List.range n.toNat).map fun j => .byte (key j)) =
            some ((List.range n.toNat).map key, []) := by
        have htake := takeBytes_map ((List.range n.toNat).map key) []
        rwa [List.length_map, List.length_range, List.append_nil, List.map_map] at htake
      rw [decodeOperands_stageSeq (hkeys _ _)] at h
      cases h
      rfl
    | _ =>
      cases h
      rfl

/-- A word that the decoder reads as an operation is read as it in front of any items. -/
theorem decode_wordItems_append {nbits w : Nat} {i : Instr} (h : decodeTableWord nbits w = some i)
    (ds : List Datum) : decode (wordItems nbits w ++ ds) = .ok (i, ds) := by
  unfold decodeTableWord at h
  split at h
  · rename_i r hr
    cases h
    have hrest := rest_of_decode_wordItems (rest := r.2) hr
    have happend := decode_append (rest := r.2) hr ds
    rwa [hrest] at happend
  · cases h

/-- Settles O5. -/
theorem theNextStepRunsAGivenWord : Obligations.TheNextStepRunsAGivenWord :=
  fun s _ _ _ h => step_of_decode (decode_wordItems_append h s.input)

/-- Settles O4. -/
theorem tableWordsDecodeToTheirOperations : Obligations.TableWordsDecodeToTheirOperations := by
  refine ⟨?_, ?_, ?_, ?_, ?_, ?_, ?_⟩ <;> decide

/-! ### A reserved word -/

/-- The words of the ten rows, in order (R79). -/
def operationWords : List Byte :=
  [0x10#8, 0x11#8, 0x20#8, 0x21#8, 0x30#8, 0x31#8, 0x40#8, 0x50#8, 0x51#8, 0x61#8, 0x62#8, 0x70#8,
    0x71#8]

theorem mem_operationWords_iff (w : Byte) : w ∈ operationWords ↔ ∃ op b, w = Opcode.word op b := by
  constructor
  · intro h
    have hread : ∀ w ∈ operationWords, (opcodeOf w).isSome = true := by decide
    obtain ⟨op, hop⟩ := Option.isSome_iff_exists.mp (hread w h)
    exact ⟨op, wordArg w, eq_word_of_opcodeOf hop⟩
  · rintro ⟨op, b, rfl⟩
    cases op <;> cases b <;> decide

/-- The reserved words are the words of no row (R79, R80). -/
theorem opcodeOf_eq_none_iff (w : Byte) : opcodeOf w = none ↔ w ∉ operationWords := by
  rw [mem_operationWords_iff, Option.eq_none_iff_forall_ne_some]
  constructor
  · rintro h ⟨op, b, rfl⟩
    exact h op (opcodeOf_word op b)
  · exact fun h op hop => h ⟨op, wordArg w, eq_word_of_opcodeOf hop⟩

theorem decode_eq_reserved_iff (w : Byte) (ds : List Datum) :
    decode (.byte w :: ds) = .error (.reservedOperation w) ↔ opcodeOf w = none := by
  rw [decode]
  cases hop : opcodeOf w with
  | none => simp
  | some op =>
    simp only [reduceCtorEq, iff_false]
    unfold decodeOperands
    split
    case h_10 => split <;> simp
    all_goals simp

/-- The list of R80, range by range between the words of the rows. -/
theorem notMem_operationWords_iff (w : Byte) : w ∉ operationWords ↔
    w ≤ 0x0F#8 ∨ (0x12#8 ≤ w ∧ w ≤ 0x1F#8) ∨ (0x22#8 ≤ w ∧ w ≤ 0x2F#8) ∨
      (0x32#8 ≤ w ∧ w ≤ 0x3F#8) ∨ (0x41#8 ≤ w ∧ w ≤ 0x4F#8) ∨ (0x52#8 ≤ w ∧ w ≤ 0x5F#8) ∨
      w = 0x60#8 ∨ (0x63#8 ≤ w ∧ w ≤ 0x6F#8) ∨ 0x72#8 ≤ w := by
  simp only [operationWords, List.mem_cons, List.not_mem_nil, or_false]
  bv_omega

/-- A staging of no key, or of more than K keys, is rejected and changes nothing else (R147). -/
theorem exec_stageSeq_rejected {s : State} (hl : s.Live) {ks : List Byte}
    (hks : ks = [] ∨ s.cfg.maxJobKeys < ks.length) :
    exec (.stageSeq ks) s = .next { s with result := some .reject } := by
  have hrejected : s.stageRejected ks = true := by
    rw [s.stageRejected_iff, List.length_eq_zero_iff]
    exact .inr (.inr (.inr hks))
  rw [exec, execStageSeq, State.stage, State.whenEnabled_of_live hl, if_pos hrejected, State.answer]

/-- Settles O3. -/
theorem reservedWordsAreRefused : Obligations.ReservedWordsAreRefused := by
  refine ⟨fun w ds => ?_, fun ks s hlen hl hks => ⟨?_, exec_stageSeq_rejected hl hks⟩⟩
  · have hiff := ((decode_eq_reserved_iff w ds).trans (opcodeOf_eq_none_iff w)).trans
      (notMem_operationWords_iff w)
    refine ⟨hiff, fun s hw hinput hreserved => ?_⟩
    exact step_of_decode_error hw (hinput ▸ hiff.mpr hreserved)
  · have hdecode := decode_encode (i := .stageSeq ks) (decide_eq_true hlen) []
    rwa [List.append_nil] at hdecode

end Sys2Proof.Machine
end

section
/-! PROOF. What the framer makes of a frame (R73, R76, R97, R100): its bytes, its count past a full
buffer, and the kind of the slot it hands off. -/

namespace Sys2Proof.Machine

/-! ### A frame -/

/-- Settles O25: the framer that holds the frame's bytes is the one the statement writes out. -/
theorem frameBitsAssembleToTheirBytes : Obligations.FrameBitsAssembleToTheirBytes :=
  fun _ _ _ hw hlen h => Framer.appendAll_frameBits hw hlen h

/-! ### Past a full buffer -/

/-- The framer with `n` more bits discarded. -/
def Framer.discard (f : Framer) (n : Nat) : Framer :=
  { f with bitCount := min Config.bitCountMax (f.bitCount + n), trunc := true }

/-- A bit for a full buffer is discarded, whether the frame is truncated already or by this bit. -/
theorem Framer.append_full {f : Framer} {c : Config} (hfull : f.byteCount = c.maxFrameBytes)
    (hmax : f.bitCount ≤ Config.bitCountMax) (b : Bit) : f.append c b = f.discard 1 := by
  have hcount : f.count.bitCount = min Config.bitCountMax (f.bitCount + 1) :=
    Framer.count_bitCount (min_eq_right hmax).symm
  rw [Framer.discard, ← hcount]
  obtain ⟨htrunc, heq⟩ | ⟨-, -, heq⟩ | ⟨-, hroom, -⟩ := f.append_cases c b
  · rw [heq, ← htrunc]
    rfl
  · exact heq
  · exact absurd hfull hroom

theorem Framer.discard_discard (f : Framer) (m n : Nat) :
    (f.discard m).discard n = f.discard (m + n) := by
  have hmin : min Config.bitCountMax (min Config.bitCountMax (f.bitCount + m) + n) =
      min Config.bitCountMax (f.bitCount + (m + n)) := by omega
  simp only [Framer.discard, hmin]

theorem Framer.appendAll_full {f : Framer} {c : Config} (hfull : f.byteCount = c.maxFrameBytes)
    (hmax : f.bitCount ≤ Config.bitCountMax) (b : Bit) (bs : List Bit) :
    f.appendAll c (b :: bs) = f.discard (b :: bs).length := by
  induction bs generalizing f b with
  | nil => exact Framer.append_full hfull hmax b
  | cons b' bs ih =>
    rw [Framer.appendAll_cons, Framer.append_full hfull hmax,
      ih (f := f.discard 1) hfull (min_le_left _ _), Framer.discard_discard, Nat.add_comm]
    rfl

/-- Settles O26. -/
theorem bitsPastAFullBufferAreOnlyCounted : Obligations.BitsPastAFullBufferAreOnlyCounted := by
  intro c f bits hfull hmax hne
  obtain ⟨b, bs, rfl⟩ := List.exists_cons_of_ne_nil hne
  exact Framer.appendAll_full hfull hmax b bs

/-! ### The kind of a slot -/

/-- BitCountMax is above the bits of any buffer, so a truncated frame's count stays above them. -/
theorem maxStoredBits_lt_bitCountMax {c : Config} (hw : c.wf = true) :
    maxStoredBits c < Config.bitCountMax := by
  obtain ⟨⟨-, hmax⟩, -⟩ := c.wf_iff.mp hw
  unfold maxStoredBits Config.bitCountMax
  omega

/-- The bits of M complete bytes (R73). -/
theorem stored_maxFrameBytes {c : Config} (hw : c.wf = true) :
    stored c.maxFrameBytes = maxStoredBits c := by
  obtain ⟨⟨hmin, -⟩, -⟩ := c.wf_iff.mp hw
  unfold stored maxStoredBits
  split_ifs <;> omega

/-- A frame that is not truncated counts the bits of its buffer, which are no more than it holds. -/
theorem Framer.Inv.bitCount_eq_stored {f : Framer} {c : Config} (h : f.Inv c) (hw : c.wf = true)
    (ht : f.trunc = false) :
    f.bitCount = stored f.byteCount + f.bitInByte ∧ f.bitCount ≤ maxStoredBits c := by
  have hfits : stored f.byteCount + f.bitInByte ≤ maxStoredBits c := by
    obtain ⟨⟨hmin, -⟩, -⟩ := c.wf_iff.mp hw
    have hle := h.byteCountLe
    have hbits := h.bitInByteLe
    have hfull := h.fullHasNoBits
    unfold stored maxStoredBits
    split_ifs <;> omega
  have hcount : f.bitCount = stored f.byteCount + f.bitInByte :=
    (h.bitCount_of_not_trunc ht).trans
      (min_eq_right (hfits.trans (maxStoredBits_lt_bitCountMax hw).le))
  exact ⟨hcount, hcount.trans_le hfits⟩

/-- A truncated frame counts its full buffer and a discarded bit. -/
theorem Framer.Inv.maxStoredBits_lt_bitCount {f : Framer} {c : Config} (h : f.Inv c)
    (hw : c.wf = true) (ht : f.trunc = true) : maxStoredBits c < f.bitCount := by
  obtain ⟨discarded, hpos, hcount⟩ := h.bitCountCounts
  rw [h.truncIsFull ht, stored_maxFrameBytes hw] at hcount
  have hsome : 0 < discarded := hpos.mpr ht
  rw [hcount, lt_min_iff]
  exact ⟨maxStoredBits_lt_bitCountMax hw, by omega⟩

/-- The slot of a framer that keeps R36 reads as truncated exactly when its frame is. -/
theorem Framer.Inv.slot_truncated {f : Framer} {c : Config} (h : f.Inv c) (hw : c.wf = true) :
    f.slot.truncated c = f.trunc := by
  cases ht : f.trunc with
  | false => exact decide_eq_false (h.bitCount_eq_stored hw ht).2.not_gt
  | true => exact decide_eq_true (h.maxStoredBits_lt_bitCount hw ht)

/-- Settles O27: `trunc` tells the truncated frames, and the bits past the complete bytes the others. -/
theorem slotMetadataTellsFramesApart : Obligations.SlotMetadataTellsFramesApart := by
  intro c f hw h
  rw [Slot.kind, h.slot_truncated hw]
  cases ht : f.trunc with
  | true => rfl
  | false =>
    obtain ⟨hcount, -⟩ := h.bitCount_eq_stored hw ht
    have hbits := h.bitInByteLe
    by_cases hnone : f.bitInByte = 0
    · simp [Framer.slot, hcount, hnone]
    · have hlt : stored f.byteCount + f.bitInByte < stored f.byteCount + 8 := by omega
      simp [Framer.slot, hcount, hnone, Nat.pos_of_ne_zero hnone, hlt]

end Sys2Proof.Machine
end

section
/-! PROOF. The results of the operations (R85) and the expansion of CLOCKBITS (R83). -/

namespace Sys2Proof.Machine

/-! ### The results -/

@[simp] theorem State.takeEdge_result (s : State) (l : Bit) (t : Nat) :
    (s.takeEdge l t).result = s.result := by rw [State.takeEdge_frame]
@[simp] theorem State.takeSample_result (s : State) (b : Bit) :
    (s.takeSample b).result = s.result := by rw [State.takeSample_eq]
@[simp] theorem State.handOff_result (s : State) : s.handOff.result = s.result := by
  rw [State.handOff_eq]
@[simp] theorem State.takeTick_result (s : State) (t : Nat) :
    (s.takeTick t).result = s.result := by
  obtain ⟨-, h⟩ | ⟨-, h⟩ := s.takeTick_cases t <;> simp [h]

/-- A staging answers ACCEPT or REJECT (R145, R147). -/
theorem State.stage_result {ks : List Byte} {s s' : State} (h : s.stage ks = .next s') :
    s'.result = some .accept ∨ s'.result = some .reject := by
  obtain ⟨-, ⟨-, rfl⟩ | ⟨-, rfl⟩⟩ := State.stage_cases h
  · exact .inr rfl
  · exact .inl rfl

/-- Settles O12, operation by operation. -/
theorem onlyPollsAndStagingsReturn : Obligations.OnlyPollsAndStagingsReturn := by
  intro i s s' h
  cases i with
  | init w =>
    obtain ⟨-, rfl⟩ := execInit_cases h
    rfl
  | edge l t =>
    obtain ⟨-, ⟨-, rfl⟩ | ⟨-, -, ⟨-, rfl⟩ | ⟨-, -, -, rfl⟩ | ⟨-, -, -, rfl⟩ | ⟨-, -, -, rfl⟩⟩⟩ :=
      execEdge_cases h
    case inr.inr.inr.inr => exact s.takeEdge_result l t
    all_goals rfl
  | sample b =>
    obtain ⟨-, -, rfl⟩ := execSample_cases h
    exact s.takeSample_result b
  | tick t =>
    obtain ⟨-, ⟨-, rfl⟩ | ⟨-, -, ⟨-, rfl⟩ | ⟨-, rfl⟩⟩⟩ := execTick_cases h
    case inr.inr => exact s.takeTick_result t
    all_goals rfl
  | popPanel =>
    obtain ⟨-, ⟨-, rfl⟩ | ⟨-, -, rfl⟩⟩ := execPopPanel_cases h <;> exact ⟨_, rfl⟩
  | popDevice =>
    obtain ⟨-, ⟨-, rfl⟩ | ⟨-, -, rfl⟩⟩ := execPopDevice_cases h <;> exact ⟨_, rfl⟩
  | clrDovf =>
    obtain ⟨-, rfl⟩ := execClrDovf_cases h
    exact s.clearDataOverflow_result
  | clrBovf =>
    obtain ⟨-, rfl⟩ := execClrBovf_cases h
    exact s.clearBufferOverflow_result
  | stageKey k => exact State.stage_result h
  | stageSeq ks => exact State.stage_result h

/-! ### CLOCKBITS -/

theorem clockBitsFrom_length (l : Bit) (t dt : Nat) (bits : List Bit) :
    (clockBitsFrom l t dt bits).length = 2 * bits.length := by
  induction bits generalizing l t with
  | nil => rfl
  | cons b bs ih =>
    rw [clockBitsFrom, List.length_cons, List.length_cons, ih, List.length_cons, Nat.mul_succ]

/-- The levels alternate. -/
theorem not_xor_odd (l : Bit) (i : Nat) :
    ((!l) ^^ decide (i % 2 = 1)) = (l ^^ decide ((i + 1) % 2 = 1)) := by
  obtain h | h := Nat.mod_two_eq_zero_or_one i <;> cases l <;> simp [h, Nat.add_mod]

/-- Bit `i` has the operations at `2 * i`, by induction on the bits before it. -/
theorem clockBitsFrom_getElem? (l : Bit) (t dt : Nat) (bits : List Bit) (i : Nat) (b : Bit)
    (h : bits[i]? = some b) :
    (clockBitsFrom l t dt bits)[2 * i]? =
        some (.edge (l ^^ decide (i % 2 = 1)) (t + i * dt)) ∧
      (clockBitsFrom l t dt bits)[2 * i + 1]? = some (.sample b) := by
  induction bits generalizing l t i with
  | nil => cases h
  | cons b' bs ih =>
    cases i with
    | zero =>
      cases h
      simp [clockBitsFrom]
    | succ i =>
      obtain ⟨hedge, hsample⟩ := ih (!l) (t + dt) i h
      have htime : t + dt + i * dt = t + (i + 1) * dt := by rw [Nat.succ_mul]; omega
      rw [not_xor_odd, htime] at hedge
      exact ⟨hedge, hsample⟩

/-- CLOCKBITS is given a meaning exactly under R83's conditions. -/
theorem clockBits_eq (c : Config) (l : Bit) (t dt : Nat) (bits : List Bit) :
    clockBits c l t dt bits =
      if c.sampleOnRising = true ∧ c.sampleOnFalling = true ∧ c.sampleOffset < dt then
        .ok (clockBitsFrom l t dt bits)
      else .error .badPseudoOperation := by
  simp only [clockBits, Bool.and_eq_true, decide_eq_true_eq, and_assoc]

/-- Settles O53. -/
theorem clockBitsExpansion : Obligations.ClockBitsExpansion := by
  intro c l0 t0 dt bits
  rw [clockBits_eq]
  refine ⟨fun h => ⟨clockBitsFrom l0 t0 dt bits, if_pos h, clockBitsFrom_length l0 t0 dt bits, ?_⟩,
    fun h => if_neg h⟩
  exact clockBitsFrom_getElem? l0 t0 dt bits

end Sys2Proof.Machine
end

section
/-! PROOF. SAMPLE (R95 to R100): the bit it counts, the overflow it flags, and the byte it places the
bit in. -/

namespace Sys2Proof.Machine

/-! ### One more bit -/

/-- Every appended bit is counted, whether it is placed or discarded (R97). -/
theorem Framer.append_bitCount (f : Framer) (c : Config) (b : Bit) :
    (f.append c b).bitCount = if f.bitCount < 65535 then f.bitCount + 1 else f.bitCount := by
  obtain ⟨-, heq⟩ | ⟨-, -, heq⟩ | ⟨-, -, heq⟩ := f.append_cases c b
  · rw [heq]; rfl
  · rw [heq]; rfl
  · rw [heq, Framer.place_eq]; rfl

theorem Framer.append_bitCount_pos (f : Framer) (c : Config) (b : Bit) :
    0 < (f.append c b).bitCount := by
  rw [Framer.append_bitCount]
  split_ifs <;> omega

theorem Framer.overflows_iff (f : Framer) (c : Config) :
    f.overflows c = true ↔ f.trunc = false ∧ f.byteCount = c.maxFrameBytes := by
  simp [Framer.overflows]

/-- A bit of a truncated frame is only counted (R97). -/
theorem Framer.append_of_trunc {f : Framer} {c : Config} (ht : f.trunc = true) (b : Bit) :
    f.append c b = { f with bitCount := (f.append c b).bitCount } := by
  rw [Framer.append_bitCount, Framer.append, if_pos ht]
  rfl

/-- The first bit past a full buffer is counted and truncates the frame (R97). -/
theorem Framer.append_of_full {f : Framer} {c : Config} (ht : f.trunc = false)
    (hfull : f.byteCount = c.maxFrameBytes) (b : Bit) :
    f.append c b = { f with bitCount := (f.append c b).bitCount, trunc := true } := by
  rw [Framer.append_bitCount, Framer.append, if_neg (by simp [ht]), if_pos hfull]
  rfl

/-- A bit with room in the buffer is counted and placed, field by field (R98, R99). -/
theorem Framer.append_of_room {f : Framer} {c : Config} (ht : f.trunc = false)
    (hroom : f.byteCount ≠ c.maxFrameBytes) (b : Bit) :
    f.append c b =
      { buf := f.buf.set f.byteCount (placeBit c.bitOrder
          (if f.bitInByte = 0 then 0#8 else f.buf.getD f.byteCount 0#8) f.bitInByte b)
        byteCount :=
          if f.bitInByte + 1 = byteWidth f.byteCount then f.byteCount + 1 else f.byteCount
        bitInByte := if f.bitInByte + 1 = byteWidth f.byteCount then 0 else f.bitInByte + 1
        bitCount := (f.append c b).bitCount
        trunc := false } := by
  rw [Framer.append_bitCount, Framer.append, if_neg (by simp [ht]), if_neg hroom, Framer.place_eq,
    ← ht]
  rfl

theorem zextBit_eq (b : Bit) : zextBit b = if b then 1#8 else 0#8 := by
  cases b <;> rfl

theorem placeBit_eq (order : BitOrder) (x : Byte) (p : Nat) (b : Bit) :
    placeBit order x p b = if order = .msbFirst then (x <<< 1) ||| (if b then 1#8 else 0#8)
      else x ||| ((if b then 1#8 else 0#8) <<< p) := by
  rw [← zextBit_eq]
  cases order <;> rfl

/-! ### A SAMPLE -/

theorem State.takeSample_framer (s : State) (b : Bit) :
    (s.takeSample b).framer s.samp.dir = (s.framer s.samp.dir).append s.cfg b := by
  rw [State.takeSample_eq]
  cases hd : s.samp.dir <;> simp [State.framer]

theorem State.takeSample_flags (s : State) (b : Bit) :
    (s.takeSample b).flags = if (s.framer s.samp.dir).overflows s.cfg then
      { s.flags with dataOverflow := true } else s.flags := by
  rw [State.takeSample_eq]

/-- A bit sets no flag where its frame is truncated already or has room (R97). -/
theorem State.takeSample_flags_of_not_overflows {s : State} (b : Bit)
    (h : ¬((s.framer s.samp.dir).trunc = false ∧
      (s.framer s.samp.dir).byteCount = s.cfg.maxFrameBytes)) :
    (s.takeSample b).flags = s.flags := by
  rw [State.takeSample_flags, if_neg (mt (Framer.overflows_iff _ _).mp h)]

/-- A SAMPLE writes only its direction's framer, the sample, the latest timestamp and the flags. -/
theorem State.takeSample_frame (s : State) (b : Bit) :
    s.takeSample b = { s with
      samp := { s.samp with pending := false }
      edge := { s.edge with tLastEvent := some s.samp.due }
      panel := if s.samp.dir = .panel then (s.takeSample b).framer s.samp.dir else s.panel
      device := if s.samp.dir = .device then (s.takeSample b).framer s.samp.dir else s.device
      flags := (s.takeSample b).flags } := by
  rw [State.takeSample_framer, State.takeSample_flags, State.takeSample_eq]
  cases hd : s.samp.dir <;> rfl

/-- Settles O22: the three things an appended bit can do to its framer, each with its flag. -/
theorem sampleCountsAndFlagsOverflow : Obligations.SampleCountsAndFlagsOverflow := by
  intro b s hl hp
  refine ⟨s.takeSample b, exec_sample_of_pending hl hp b, ?_⟩
  intro f f'
  have hf' : f' = f.append s.cfg b := s.takeSample_framer b
  refine ⟨hf' ▸ f.append_bitCount s.cfg b, fun ht => ⟨?_, ?_⟩, fun ht hfull => ⟨?_, ?_⟩,
    fun ht hroom => ⟨?_, ?_⟩, s.takeSample_frame b⟩
  · rw [hf']
    exact Framer.append_of_trunc ht b
  · exact State.takeSample_flags_of_not_overflows b fun ⟨hnot, _⟩ => nomatch ht.symm.trans hnot
  · rw [hf']
    exact Framer.append_of_full ht hfull b
  · rw [State.takeSample_flags, if_pos ((Framer.overflows_iff _ _).mpr ⟨ht, hfull⟩)]
  · rw [hf', Framer.append_of_room ht hroom]
  · exact State.takeSample_flags_of_not_overflows b fun ⟨_, hfull⟩ => hroom hfull

/-- Settles O23. -/
theorem samplePlacesTheBit : Obligations.SamplePlacesTheBit := by
  intro b s hl hp ht hlt
  refine ⟨s.takeSample b, exec_sample_of_pending hl hp b, ?_⟩
  intro f f' x w
  have hf' : f' = f.append s.cfg b := s.takeSample_framer b
  have hplace := Framer.append_of_room ht hlt.ne b
  rw [← hf'] at hplace
  refine ⟨?_, fun hlast => ?_, fun hmore => ?_, hf' ▸ f.append_bitCount s.cfg b, ?_, ?_⟩
  · rw [hplace, placeBit_eq]
  · have hlast : f.bitInByte + 1 = byteWidth f.byteCount := hlast
    rw [hplace]
    exact ⟨if_pos hlast, if_pos hlast⟩
  · have hmore : f.bitInByte + 1 ≠ byteWidth f.byteCount := hmore
    rw [hplace]
    exact ⟨if_neg hmore, if_neg hmore⟩
  · rw [hplace]
  · have hflags := State.takeSample_flags_of_not_overflows b fun h => hlt.ne h.2
    have hframe := s.takeSample_frame b
    rwa [hflags] at hframe

/-- Settles O24. -/
theorem sampleNeedsAPendingSample : Obligations.SampleNeedsAPendingSample := by
  intro b s hl hp
  rw [exec, execSample, State.whenEnabled_of_live hl, if_neg (by simp [hp])]

end Sys2Proof.Machine
end

section
/-! PROOF. EDGE (R91 to R96, R172): what a taken one records and arms, the order of the model faults,
what waits for a pending sample, and the direction along the operations. -/

namespace Sys2Proof.Machine

/-! ### A bound block that waits for no sample -/

theorem State.sampleDueBy_eq_false {s : State} {t : Nat} :
    s.sampleDueBy t = false ↔ ¬(s.samp.pending = true ∧ s.samp.due ≤ t) := by
  rw [← s.sampleDueBy_iff t, Bool.not_eq_true]

/-- The tests of an EDGE in a live bound state, in the order of R172. -/
theorem exec_edge_of_bound {s : State} (hl : s.Live) (hb : s.ctl.bound = true) (l : Bit) (t : Nat) :
    exec (.edge l t) s =
      if s.sampleDueBy t then .fault .sampleFirst
      else if laterThan s.edge.tLastEvent t then s.raise .timeReversal
      else if s.samp.pending && decide (t < s.samp.due) then s.raise .sampleOverrun
      else if s.edge.clk = some l then s.raise .notATransition
      else .next (s.takeEdge l t) := by
  rw [exec, execEdge, State.whenEnabled_of_live hl, if_neg (by simp [hb])]

/-- The tests of a TICK in a live bound state (R111). -/
theorem exec_tick_of_bound {s : State} (hl : s.Live) (hb : s.ctl.bound = true) (t : Nat) :
    exec (.tick t) s =
      if s.sampleDueBy t then .fault .sampleFirst
      else if laterThan s.edge.tLastEvent t then s.raise .timeReversal
      else .next (s.takeTick t) := by
  rw [exec, execTick, State.whenEnabled_of_live hl, if_neg (by simp [hb])]

/-- Settles O17: the tests before the one that raises the fault fail. -/
theorem modelFaultsAreRaisedInOrder : Obligations.ModelFaultsAreRaisedInOrder := by
  intro l t s hl hb hwait
  have hdue : ¬s.sampleDueBy t = true := mt (s.sampleDueBy_iff t).mp hwait
  have hedge := exec_edge_of_bound hl hb l t
  have htick := exec_tick_of_bound hl hb t
  rw [if_neg hdue] at hedge htick
  refine ⟨fun hlate => ?_, fun htime hp => ?_, fun htime hp hclk => ?_⟩
  · have hlate := (laterThan_iff s.edge.tLastEvent t).mpr hlate
    rw [if_pos hlate] at hedge htick
    exact ⟨hedge, htick⟩
  · have hearly : t < s.samp.due := not_le.mp fun h => hwait ⟨hp, h⟩
    rw [hedge, if_neg (mt (laterThan_iff _ t).mp htime), if_pos (by simp [hp, hearly]), State.raise]
  · rw [hedge, if_neg (mt (laterThan_iff _ t).mp htime), if_neg (by simp [hp]), if_pos hclk,
      State.raise]

/-! ### While a sample is pending -/

/-- The consumer's operations always have a step (R120). -/
theorem exec_next_of_consumer {i : Instr} {s : State} (hl : s.Live)
    (hi : isConsumerAccess i = true ∨ isInit i = true) : ∃ s', exec i s = .next s' := by
  have hstage (ks : List Byte) : ∃ s', s.stage ks = .next s' := by
    rw [State.stage, State.whenEnabled_of_live hl]
    split <;> exact ⟨_, rfl⟩
  cases i with
  | init w => exact ⟨_, exec_init_of_live hl w⟩
  | edge l t => simp [isConsumerAccess, isInit] at hi
  | sample b => simp [isConsumerAccess, isInit] at hi
  | tick t => simp [isConsumerAccess, isInit] at hi
  | popPanel =>
    rw [exec, execPopPanel, State.whenEnabled_of_live hl]
    split <;> exact ⟨_, rfl⟩
  | popDevice =>
    rw [exec, execPopDevice, State.whenEnabled_of_live hl]
    split <;> exact ⟨_, rfl⟩
  | clrDovf => exact ⟨_, State.whenEnabled_of_live hl _⟩
  | clrBovf => exact ⟨_, State.whenEnabled_of_live hl _⟩
  | stageKey k => exact hstage [k]
  | stageSeq ks => exact hstage ks

/-- Settles O18. -/
theorem sampleGoesBeforeLaterEvents : Obligations.SampleGoesBeforeLaterEvents := by
  intro s hl hb hp
  refine ⟨fun b => ⟨_, exec_sample_of_pending hl hp b⟩, fun l t hdue => ?_, fun t hdue => ?_,
    fun i hi => exec_next_of_consumer hl hi⟩
  · rw [exec_edge_of_bound hl hb, if_pos ((s.sampleDueBy_iff t).mpr ⟨hp, hdue⟩)]
  · rw [exec_tick_of_bound hl hb, if_pos ((s.sampleDueBy_iff t).mpr ⟨hp, hdue⟩)]

/-! ### A taken edge -/

theorem Config.samples_iff (c : Config) (l : Bit) : Config.samples c l = true ↔
    (l = true ∧ c.sampleOnRising = true) ∨ (l = false ∧ c.sampleOnFalling = true) := by
  cases l <;> simp [Config.samples]

/-- Settles O15. -/
theorem edgeRecordsClassifiesAndArms : Obligations.EdgeRecordsClassifiesAndArms := by
  intro l t s hl hb hp htime hclk
  have hedge := s.takeEdge_edge l t
  have hdir : (s.takeEdge l t).edge.dir = s.classify l t := by rw [hedge]
  refine ⟨s.takeEdge l t, execEdge_taken hl hb hp ((laterThan_eq_false _ t).mpr htime) hclk,
    by rw [hedge], by rw [hedge], by rw [hedge], by rw [hedge], ?_, fun hs => ?_, fun hs => ?_,
    s.takeEdge_frame l t⟩
  · simp only [hdir, s.classify_eq_device, lt_tsub_iff_left]
  · rw [hdir, s.takeEdge_samp, if_pos ((Config.samples_iff s.cfg l).mpr hs)]
  · rw [s.takeEdge_samp, if_neg (mt (Config.samples_iff s.cfg l).mp hs)]

/-! ### The direction -/

/-- A taken TICK leaves the direction, or empties both captures with it (R114). -/
theorem State.takeTick_dir_cases (s : State) (t : Nat) :
    (s.takeTick t).edge.dir = s.edge.dir ∨
    ((s.takeTick t).edge.dir = .panel ∧ (s.takeTick t).panel.bitCount = 0 ∧
      (s.takeTick t).device.bitCount = 0) := by
  obtain ⟨-, h⟩ | ⟨-, h⟩ := s.takeTick_cases t <;> rw [h]
  · exact .inl rfl
  · rw [State.handOff_eq]
    exact .inr ⟨rfl, rfl, rfl⟩

/-- Everything an operation can do to the direction: nothing, the classification of an EDGE, a frame
boundary, or a reset (R91, R114, R161). -/
theorem exec_dir_cases {i : Instr} {s s' : State} (h : exec i s = .next s') :
    s'.edge.dir = s.edge.dir ∨
    (∃ l t, i = .edge l t ∧ s'.edge.dir = s.classify l t) ∨
    (∃ t, i = .tick t ∧ s'.edge.dir = .panel ∧ s'.panel.bitCount = 0 ∧ s'.device.bitCount = 0) ∨
    ∃ w, i = .init w ∧ s'.edge.dir = .panel := by
  have hconsumer (hi : isConsumerAccess i = true) : s'.edge.dir = s.edge.dir := by
    obtain ⟨-, -, hedge, -⟩ := exec_capture_of_isConsumerAccess hi h
    rw [hedge]
  cases i with
  | init w =>
    obtain ⟨-, rfl⟩ := execInit_cases h
    exact .inr (.inr (.inr ⟨w, rfl, rfl⟩))
  | edge l t =>
    obtain ⟨-, ⟨-, rfl⟩ | ⟨-, -, ⟨-, rfl⟩ | ⟨-, -, -, rfl⟩ | ⟨-, -, -, rfl⟩ | ⟨-, -, -, rfl⟩⟩⟩ :=
      execEdge_cases h
    case inr.inr.inr.inr =>
      refine .inr (.inl ⟨l, t, rfl, ?_⟩)
      rw [s.takeEdge_edge]
    all_goals exact .inl rfl
  | sample b =>
    obtain ⟨-, -, rfl⟩ := execSample_cases h
    rw [State.takeSample_eq]
    exact .inl rfl
  | tick t =>
    obtain ⟨-, ⟨-, rfl⟩ | ⟨-, -, ⟨-, rfl⟩ | ⟨-, rfl⟩⟩⟩ := execTick_cases h
    case inr.inr =>
      exact (s.takeTick_dir_cases t).imp_right fun hend => .inr (.inl ⟨t, rfl, hend⟩)
    all_goals exact .inl rfl
  | popPanel => exact .inl (hconsumer rfl)
  | popDevice => exact .inl (hconsumer rfl)
  | clrDovf => exact .inl (hconsumer rfl)
  | clrBovf => exact .inl (hconsumer rfl)
  | stageKey k => exact .inl (hconsumer rfl)
  | stageSeq ks => exact .inl (hconsumer rfl)

/-- Settles O19: of the four things an operation can do to the direction, an EDGE keeps Device, and a
frame boundary and INIT give Panel. -/
theorem directionSwitchesOneWayWithinAFrame : Obligations.DirectionSwitchesOneWayWithinAFrame := by
  intro i s s' h
  obtain hkeep | ⟨l, t, rfl, hdir⟩ | ⟨t, rfl, hdir, hpanel, hdevice⟩ | ⟨w, rfl, hdir⟩ :=
    exec_dir_cases h
  · rw [hkeep]
    exact ⟨fun hp hd => (nomatch hp.symm.trans hd), fun hd hp => (nomatch hp.symm.trans hd)⟩
  · rw [hdir]
    refine ⟨fun hp hd => ?_, fun hd hp => ?_⟩
    · obtain hdev | ⟨hfall, -⟩ := (s.classify_eq_device l t).mp hd
      · exact nomatch hp.symm.trans hdev
      · exact ⟨l, t, rfl, hfall⟩
    · exact nomatch hp.symm.trans ((s.classify_eq_device l t).mpr (.inl hd))
  · exact ⟨fun _ hd => (nomatch hdir.symm.trans hd), fun _ _ => .inl ⟨t, rfl, hdevice, hpanel⟩⟩
  · exact ⟨fun _ hd => (nomatch hdir.symm.trans hd), fun _ _ => .inr ⟨w, rfl⟩⟩

end Sys2Proof.Machine
end

section
/-! PROOF. Exactly periodic ticks (R110, R118): the ticks that only stamp their time, the one that ends
the frame, and the SAMPLE that goes between them when one is pending (R96, R115). -/

namespace Sys2Proof.Machine

/-! ### The first tick past a time -/

theorem periodicTicks_succ (c : Config) (t0 n : Nat) :
    periodicTicks c t0 (n + 1) = periodicTicks c t0 n ++ [.tick (t0 + n * c.timerPeriod)] := by
  simp [periodicTicks, List.range_succ]

/-- Ticks with a period come to any time, and there is a first one that does. -/
theorem exists_first_tick {p : Nat} (hp : 0 < p) (t0 d : Nat) :
    ∃ k, (∀ j < k, t0 + j * p < d) ∧ d ≤ t0 + k * p := by
  have hreach : ∃ k, d ≤ t0 + k * p :=
    ⟨d, (Nat.le_mul_of_pos_right d hp).trans (Nat.le_add_left _ _)⟩
  exact ⟨Nat.find hreach, fun j hj => not_le.mp (Nat.find_min hreach hj), Nat.find_spec hreach⟩

/-- The first tick past `d` comes within a period of it, unless the ticks begin later. -/
theorem first_tick_le {p t0 d n : Nat} (hfirst : ∀ j < n, t0 + j * p ≤ d) (h0 : t0 ≤ d + p) :
    t0 + n * p ≤ d + p := by
  cases n with
  | zero => simpa using h0
  | succ n =>
    have := hfirst n (Nat.lt_succ_self n)
    rw [Nat.succ_mul]
    omega

/-! ### The ticks that only stamp their time -/

/-- `s` with another latest timestamp. -/
def State.withLastEvent (s : State) (u : Option Nat) : State :=
  { s with edge := { s.edge with tLastEvent := u } }

/-- A SAMPLE stamps its due time over the latest timestamp (R95). -/
theorem State.takeSample_withLastEvent (s : State) (u : Option Nat) (b : Bit) :
    (s.withLastEvent u).takeSample b = s.takeSample b := by
  rw [State.takeSample_eq, State.takeSample_eq]
  rfl

/-- A TICK that neither waits for a sample nor ends the frame stamps its time (R111). -/
theorem exec_tick_stamps {s : State} {t : Nat} (hl : s.Live) (hb : s.ctl.bound = true)
    (htime : ∀ u, s.edge.tLastEvent = some u → u ≤ t) (hdue : s.sampleDueBy t = false)
    (hnot : s.frameEnds t = false) : exec (.tick t) s = .next (s.withLastEvent (some t)) := by
  have htaken := execTick_taken hl hb hdue ((laterThan_eq_false _ t).mpr htime)
  obtain ⟨-, heq⟩ | ⟨hends, -⟩ := s.takeTick_cases t
  · exact htaken.trans (congrArg _ heq)
  · exact nomatch hnot.symm.trans hends

/-- A TICK that ends the frame hands it off (R111). -/
theorem exec_tick_handsOff {s : State} {t : Nat} (hl : s.Live) (hb : s.ctl.bound = true)
    (htime : ∀ u, s.edge.tLastEvent = some u → u ≤ t) (hdue : s.sampleDueBy t = false)
    (hends : s.frameEnds t = true) : exec (.tick t) s = .next (s.stampEvent t).handOff := by
  have htaken := execTick_taken hl hb hdue ((laterThan_eq_false _ t).mpr htime)
  obtain ⟨hnot, -⟩ | ⟨-, heq⟩ := s.takeTick_cases t
  · exact nomatch hends.symm.trans hnot
  · exact htaken.trans (congrArg _ heq)

/-- Such ticks in a row write only the latest timestamp, by induction on their number. -/
theorem runOps_periodicTicks_stamps {s : State} {t0 : Nat} (hl : s.Live) (hb : s.ctl.bound = true)
    (htime : ∀ u, s.edge.tLastEvent = some u → u ≤ t0) (m : Nat)
    (hdue : ∀ j < m, s.sampleDueBy (t0 + j * s.cfg.timerPeriod) = false)
    (hnot : ∀ j < m, s.frameEnds (t0 + j * s.cfg.timerPeriod) = false) :
    ∃ u, runOps (periodicTicks s.cfg t0 m) s = .next (s.withLastEvent u) ∧
      ∀ v, u = some v → v ≤ t0 + m * s.cfg.timerPeriod := by
  induction m with
  | zero => exact ⟨s.edge.tLastEvent, rfl, by simpa using htime⟩
  | succ m ih =>
    obtain ⟨u, hrun, hu⟩ := ih (fun j hj => hdue j (Nat.lt_succ_of_lt hj))
      fun j hj => hnot j (Nat.lt_succ_of_lt hj)
    have htick := exec_tick_stamps (s := s.withLastEvent u) hl hb hu
      (hdue m (Nat.lt_succ_self m)) (hnot m (Nat.lt_succ_self m))
    refine ⟨some (t0 + m * s.cfg.timerPeriod), ?_, fun v hv => ?_⟩
    · rw [periodicTicks_succ, runOps_append _ hrun, runOps_cons_of_next htick]
      rfl
    · cases hv
      rw [Nat.succ_mul]
      omega

/-! ### The tick that ends the frame -/

/-- No frame ends up to e + Ti (R111). -/
theorem State.frameEnds_eq_false_of_early {s : State} {e t : Nat} (he : s.edge.tLastEdge = some e)
    (h : t ≤ e + s.cfg.idleThreshold) : s.frameEnds t = false := by
  rw [← Bool.not_eq_true, s.frameEnds_iff, he]
  rintro ⟨⟨e', ⟨⟩, hlate⟩, -⟩
  omega

theorem State.queued_handOff {s : State} (hbits : 0 < s.panel.bitCount) :
    s.handOff.queued = (s.fifoAppend s.panel.slot).queued := by
  have hqueue : s.handOff.queue = (s.fifoAppend s.panel.slot).queue := by
    simp [State.handOff, State.storePanel, hbits]
  exact State.queued_congr hqueue (by simp)

/-- What a hand-off hands off (R112 to R117). -/
theorem State.handOff_handedOff (s : State) : s.HandedOff s.handOff := by
  have heq := s.handOff_eq
  refine ⟨by rw [heq], by rw [heq], fun hd => ?_, fun hd => ?_, fun hp hinv hroom => ⟨?_, ?_⟩,
    fun hp hfull => ?_, fun hp => ?_⟩
  · simp [heq, hd]
  · simp [heq, hd]
  · rw [State.queued_handOff hp, State.queued_fifoAppend _ hinv hroom]
  · simp [heq, hroom]
  · simp [heq, hp, hfull.not_gt]
  · simp [heq, hp]

/-- The ticks after the last sample of a frame: the ones up to e + Ti leave the capture as it was, and
the first one past it hands the frame off (R118). -/
theorem admittedRun_periodicTicks_endFrame {s : State} {e t0 n : Nat} (hl : s.Live)
    (hb : s.ctl.bound = true) (hp : s.samp.pending = false) (he : s.edge.tLastEdge = some e)
    (hbits : 0 < s.panel.bitCount ∨ 0 < s.device.bitCount)
    (htime : ∀ u, s.edge.tLastEvent = some u → u ≤ t0)
    (hidle : ∀ j < n, t0 + j * s.cfg.timerPeriod ≤ e + s.cfg.idleThreshold)
    (hend : e + s.cfg.idleThreshold < t0 + n * s.cfg.timerPeriod) :
    (∀ m ≤ n, ∃ s', AdmittedRun (periodicTicks s.cfg t0 m) s s' ∧
      s'.panel = s.panel ∧ s'.device = s.device ∧ s'.queue = s.queue ∧ s'.latch = s.latch) ∧
    ∃ s', AdmittedRun (periodicTicks s.cfg t0 (n + 1)) s s' ∧ s.HandedOff s' := by
  have hdue (t : Nat) : s.sampleDueBy t = false := by simp [State.sampleDueBy, hp]
  have hends : s.frameEnds (t0 + n * s.cfg.timerPeriod) = true :=
    (s.frameEnds_iff _).mpr ⟨⟨e, he, hend⟩, hbits⟩
  have hstamps (m : Nat) (hm : m ≤ n) := runOps_periodicTicks_stamps hl hb htime m
    (fun _ _ => hdue _) fun j hj => State.frameEnds_eq_false_of_early he (hidle j (hj.trans_le hm))
  refine ⟨fun m hm => ?_, ?_⟩
  · obtain ⟨u, hrun, -⟩ := hstamps m hm
    exact ⟨_, ⟨hrun, hl.2⟩, rfl, rfl, rfl, rfl⟩
  · obtain ⟨u, hrun, hu⟩ := hstamps n le_rfl
    have htick := exec_tick_handsOff (s := s.withLastEvent u) hl hb hu (hdue _) hends
    refine ⟨_, ⟨?_, ?_⟩,
      State.handOff_handedOff (s.withLastEvent (some (t0 + n * s.cfg.timerPeriod)))⟩
    · rw [periodicTicks_succ, runOps_append _ hrun, runOps_cons_of_next htick]
      rfl
    · exact (State.handOff_fault _).trans hl.2

/-! ### A pending sample -/

theorem State.takeSample_bitCount_pos (s : State) (b : Bit) :
    0 < (s.takeSample b).panel.bitCount ∨ 0 < (s.takeSample b).device.bitCount := by
  have hpos := (s.framer s.samp.dir).append_bitCount_pos s.cfg b
  rw [← s.takeSample_framer b] at hpos
  cases hd : s.samp.dir with
  | panel => exact .inl (by rwa [hd] at hpos)
  | device => exact .inr (by rwa [hd] at hpos)

/-- The ticks before a pending sample is due, and the SAMPLE (R96). -/
theorem admittedRun_periodicTicks_sample {s : State} {t0 k : Nat} (hl : s.Live)
    (hb : s.ctl.bound = true) (hp : s.samp.pending = true)
    (htime : ∀ u, s.edge.tLastEvent = some u → u ≤ t0)
    (hearly : ∀ j < k, t0 + j * s.cfg.timerPeriod < s.samp.due)
    (hnot : ∀ j < k, s.frameEnds (t0 + j * s.cfg.timerPeriod) = false) (b : Bit) :
    AdmittedRun (periodicTicks s.cfg t0 k ++ [.sample b]) s (s.takeSample b) := by
  have hdue : ∀ j < k, s.sampleDueBy (t0 + j * s.cfg.timerPeriod) = false := fun j hj =>
    State.sampleDueBy_eq_false.mpr fun h => (hearly j hj).not_ge h.2
  obtain ⟨u, hrun, -⟩ := runOps_periodicTicks_stamps hl hb htime k hdue hnot
  have hsample := exec_sample_of_pending (s := s.withLastEvent u) hl hp b
  rw [State.takeSample_withLastEvent] at hsample
  refine ⟨?_, (s.takeSample_fault b).trans hl.2⟩
  rw [runOps_append _ hrun, runOps_cons_of_next hsample]
  rfl

/-- Settles O55: the ticks before the due time and the SAMPLE, and then the ticks of a frame with no
sample pending, from the first one at or after the due time. -/
theorem periodicTicksEndAFrameWithASamplePending :
    Obligations.PeriodicTicksEndAFrameWithASamplePending := by
  intro s e t0 b hl hb hp he hdue htime ht0
  obtain ⟨-, -, ⟨-, hoffset⟩, -, hperiod, -⟩ := s.cfg.wf_iff.mp hl.1
  have hbefore : s.samp.due ≤ e + s.cfg.idleThreshold := by omega
  obtain ⟨k, hearly, hreach⟩ := exists_first_tick hperiod t0 s.samp.due
  obtain ⟨n, hidle, hend⟩ := exists_first_tick hperiod (t0 + k * s.cfg.timerPeriod)
    (e + s.cfg.idleThreshold + 1)
  have hidle : ∀ j < n, t0 + k * s.cfg.timerPeriod + j * s.cfg.timerPeriod ≤
      e + s.cfg.idleThreshold := fun j hj => Nat.le_of_lt_succ (hidle j hj)
  have hquiet : ∀ j < k, t0 + j * s.cfg.timerPeriod ≤ e + s.cfg.idleThreshold := fun j hj =>
    (hearly j hj).le.trans hbefore
  have htick : t0 + (k + n) * s.cfg.timerPeriod =
      t0 + k * s.cfg.timerPeriod + n * s.cfg.timerPeriod := by rw [Nat.add_mul, Nat.add_assoc]
  refine ⟨k, n, hearly, hreach, htick ▸ hend, ?_, s.takeSample b,
    admittedRun_periodicTicks_sample hl hb hp htime hearly
      (fun j hj => State.frameEnds_eq_false_of_early he (hquiet j hj)) b, ?_, ?_,
    s.takeSample_queue b, ?_, ?_⟩
  · exact htick ▸ first_tick_le hidle (first_tick_le hquiet ht0)
  · rw [State.takeSample_eq, State.append_eq]
  · rw [State.takeSample_eq, State.append_eq]
  · rw [State.takeSample_eq]
  · have hcfg := s.takeSample_cfg b
    have hframe := s.takeSample_eq b
    have hlive : (s.takeSample b).Live := ⟨hcfg ▸ hl.1, (s.takeSample_fault b).trans hl.2⟩
    rw [← hcfg] at hidle hend ⊢
    exact admittedRun_periodicTicks_endFrame hlive ((congrArg _ (s.takeSample_ctl b)).trans hb)
      (by rw [hframe]) (by rw [hframe]; exact he) (s.takeSample_bitCount_pos b)
      (fun u hu => by
        rw [hframe] at hu
        cases hu
        rwa [hcfg])
      hidle hend

end Sys2Proof.Machine
end

section
/-! PROOF. TICK (R110 to R118): the next state with and without a hand-off, while a sample is pending, and
along periodic ticks; and the frames a FIFO keeps of the ones appended to it with no poll between
(R113, R130). -/

namespace Sys2Proof.Machine

/-! ### One TICK -/

/-- Settles O28. -/
theorem tickHandsOff : Obligations.TickHandsOff := by
  intro t e s hl hb hwait htime he hidle hbits
  have hends : s.frameEnds t = true :=
    (s.frameEnds_iff t).mpr ⟨⟨e, he, Nat.add_lt_of_lt_sub' hidle⟩, hbits⟩
  rw [exec_tick_handsOff hl hb htime (State.sampleDueBy_eq_false.mpr hwait) hends,
    State.handOff_eq]
  rfl

/-- Settles O29: neither way of finding no frame ends one. -/
theorem tickWithoutAHandOffStampsItsTime : Obligations.TickWithoutAHandOffStampsItsTime := by
  intro t s hl hb hwait htime hquiet
  refine exec_tick_stamps hl hb htime (State.sampleDueBy_eq_false.mpr hwait) ?_
  rw [← Bool.not_eq_true, s.frameEnds_iff]
  rintro ⟨⟨e, he, hidle⟩, hbits⟩
  obtain hearly | ⟨hpanel, hdevice⟩ := hquiet
  · have := hearly e he
    omega
  · omega

/-- Settles O30: the sample is due before e + Ti (R8), so a tick before the due time ends no frame. -/
theorem tickWithASamplePendingNeverHandsOff :
    Obligations.TickWithASamplePendingNeverHandsOff := by
  intro t e s s' hb hp he hdue h
  obtain ⟨hl, ⟨hunbound, -⟩ | ⟨-, hwait, hcase⟩⟩ := execTick_cases h
  · exact nomatch hb.symm.trans hunbound
  · have hearly : t < s.samp.due :=
      not_le.mp fun hle => State.sampleDueBy_eq_false.mp hwait ⟨hp, hle⟩
    obtain ⟨-, -, ⟨-, hoffset⟩, -⟩ := s.cfg.wf_iff.mp hl.1
    have hnot : s.frameEnds t = false := State.frameEnds_eq_false_of_early he (by omega)
    refine ⟨hearly, hcase.imp And.right ?_⟩
    rintro ⟨-, rfl⟩
    obtain ⟨-, hstamp⟩ | ⟨hends, -⟩ := s.takeTick_cases t
    · exact hstamp
    · exact nomatch hnot.symm.trans hends

/-! ### Periodic ticks -/

/-- Settles O31, by the first tick later than e + Ti. -/
theorem periodicTicksEndTheFrameInTime : Obligations.PeriodicTicksEndTheFrameInTime := by
  intro s e t0 hl hb hp he hbits htime ht0
  obtain ⟨-, -, -, -, hperiod, -⟩ := s.cfg.wf_iff.mp hl.1
  obtain ⟨n, hbefore, hend⟩ := exists_first_tick hperiod t0 (e + s.cfg.idleThreshold + 1)
  have hidle : ∀ j < n, t0 + j * s.cfg.timerPeriod ≤ e + s.cfg.idleThreshold := fun j hj =>
    Nat.le_of_lt_succ (hbefore j hj)
  exact ⟨n, hend, first_tick_le hidle ht0,
    admittedRun_periodicTicks_endFrame hl hb hp he hbits htime hidle hend⟩

/-! ### Frames appended with no poll between -/

/-- A FIFO with room takes the slot in its next free place. -/
theorem State.fifoAppend_of_room {s : State} (x : Slot)
    (hroom : s.queue.count < s.cfg.queueCapacity) :
    s.fifoAppend x = { s with queue := { s.queue with
      fifo := s.queue.fifo.set ((s.queue.head + s.queue.count) % s.cfg.queueCapacity) x
      count := s.queue.count + 1 } } := by
  rw [State.fifoAppend_eq, if_pos hroom, if_pos hroom]

/-- A full FIFO drops the slot and records the loss. -/
theorem State.fifoAppend_of_full {s : State} (x : Slot)
    (hfull : s.cfg.queueCapacity ≤ s.queue.count) :
    s.fifoAppend x = s.record .bufferOverflow := if_neg hfull.not_gt

theorem State.fifoAppend_fifo_length (s : State) (x : Slot) :
    (s.fifoAppend x).queue.fifo.length = s.queue.fifo.length := by
  obtain hroom | hfull := lt_or_ge s.queue.count s.cfg.queueCapacity
  · rw [State.fifoAppend_of_room x hroom, List.length_set]
  · rw [State.fifoAppend_of_full x hfull, State.record_queue]

/-- Of a FIFO with room, appending changes the slot behind the queued ones alone. It asks for the FIFO's
size only, so it holds of any slots, and not just of those that keep R36. -/
theorem State.queueSlot_fifoAppend {s : State} (x : Slot)
    (hsize : s.queue.fifo.length = s.cfg.queueCapacity)
    (hroom : s.queue.count < s.cfg.queueCapacity) {i : Nat} (hi : i ≤ s.queue.count) :
    (s.fifoAppend x).queueSlot i = if i = s.queue.count then x else s.queueSlot i := by
  have hread : (s.fifoAppend x).queueSlot i =
      (s.memWrite .fifo ((s.queue.head + s.queue.count) % s.cfg.queueCapacity) x).memRead .fifo
        ((s.queue.head + i) % s.cfg.queueCapacity) := by
    rw [State.fifoAppend_of_room x hroom]
    rfl
  rw [hread]
  split
  case isTrue heq =>
    rw [heq, State.memRead_memWrite_fifo]
    exact (Nat.mod_lt _ (Nat.zero_lt_of_lt hroom)).trans_eq hsize.symm
  case isFalse hne =>
    exact State.memRead_memWrite_of_slot_ne s .fifo x
      (ringIndex_ne _ (hi.trans_lt hroom) hroom hne)

theorem State.queued_fifoAppend_of_size {s : State} (x : Slot)
    (hsize : s.queue.fifo.length = s.cfg.queueCapacity)
    (hroom : s.queue.count < s.cfg.queueCapacity) :
    (s.fifoAppend x).queued = s.queued ++ [x] := by
  have hcount : (s.fifoAppend x).queue.count = s.queue.count + 1 := by
    rw [State.fifoAppend_of_room x hroom]
  have hold : ∀ i ∈ List.range s.queue.count, (s.fifoAppend x).queueSlot i = s.queueSlot i :=
    fun i hi => by
      have hlt := List.mem_range.mp hi
      rw [State.queueSlot_fifoAppend x hsize hroom hlt.le, if_neg hlt.ne]
  rw [State.queued, hcount, List.range_succ, List.map_append, List.map_congr_left hold,
    List.map_singleton, State.queueSlot_fifoAppend x hsize hroom le_rfl, if_pos rfl, State.queued]

/-- Slots appended in a row are queued in order as long as there is room, by induction on their list. -/
theorem State.queued_foldl_fifoAppend (xs : List Slot) {s : State}
    (hsize : s.queue.fifo.length = s.cfg.queueCapacity) :
    (xs.foldl State.fifoAppend s).queued =
      s.queued ++ xs.take (s.cfg.queueCapacity - s.queue.count) := by
  induction xs generalizing s with
  | nil => simp
  | cons x xs ih =>
    have hrest := ih (s := s.fifoAppend x)
      (by rw [State.fifoAppend_fifo_length, State.fifoAppend_cfg, hsize])
    rw [List.foldl_cons, hrest, State.fifoAppend_cfg]
    obtain hroom | hfull := lt_or_ge s.queue.count s.cfg.queueCapacity
    · have hcount : (s.fifoAppend x).queue.count = s.queue.count + 1 := by
        rw [State.fifoAppend_of_room x hroom]
      have hleft : s.cfg.queueCapacity - s.queue.count =
          s.cfg.queueCapacity - (s.queue.count + 1) + 1 := by omega
      rw [State.queued_fifoAppend_of_size x hsize hroom, hcount, hleft, List.take_succ_cons,
        List.append_assoc, List.singleton_append]
    · have hqueue : (s.fifoAppend x).queue = s.queue := by
        rw [State.fifoAppend_of_full x hfull, State.record_queue]
      rw [State.queued_congr hqueue (s.fifoAppend_cfg x), hqueue,
        Nat.sub_eq_zero_of_le hfull, List.take_zero, List.take_zero]

/-- Slots appended in a row set BufferOverflow when there are more than have room, by induction on their
list. -/
theorem State.foldl_fifoAppend_bufferOverflow_iff (xs : List Slot) {s : State}
    (hle : s.queue.count ≤ s.cfg.queueCapacity) :
    (xs.foldl State.fifoAppend s).flags.bufferOverflow = true ↔
      s.flags.bufferOverflow = true ∨ s.cfg.queueCapacity < s.queue.count + xs.length := by
  induction xs generalizing s with
  | nil => simp [hle]
  | cons x xs ih =>
    rw [List.foldl_cons, List.length_cons]
    obtain hroom | hfull := lt_or_ge s.queue.count s.cfg.queueCapacity
    · have hroom' := State.fifoAppend_of_room x hroom
      rw [ih (by rw [hroom']; exact hroom), hroom', Nat.add_right_comm, Nat.add_assoc]
    · have hfull' := State.fifoAppend_of_full x hfull
      rw [ih (by rw [hfull']; exact hle), hfull']
      have hmore : s.cfg.queueCapacity < s.queue.count + (xs.length + 1) := by omega
      simp [hmore]

/-- Settles O35: with nothing queued and the flag clear, room is for Q slots. -/
theorem queueOverflowKeepsTheOldestFrames : Obligations.QueueOverflowKeepsTheOldestFrames := by
  intro s xs hinv hempty hclear s'
  have hnone : s.queued = [] := List.eq_nil_of_length_eq_zero (s.queued_length.trans hempty)
  have hqueued : s'.queued = xs.take s.cfg.queueCapacity := by
    rw [State.queued_foldl_fifoAppend xs hinv.size, hnone, hempty, List.nil_append, Nat.sub_zero]
  refine ⟨hqueued, ?_, ?_⟩
  · rw [← s'.queued_length, hqueued, List.length_take]
  · rw [State.foldl_fifoAppend_bufferOverflow_iff xs hinv.countLe, hclear, hempty, Nat.zero_add]
    simp

end Sys2Proof.Machine
end

section
/-! PROOF. The consumer's operations on the frame storage (R120 to R128): the next state of each poll,
with something to take and with nothing, and of each flag clear. -/

namespace Sys2Proof.Machine

/-! ### The polls -/

/-- What taking from the FIFO leaves, field by field (R121). -/
theorem State.takePanel_eq (s : State) :
    s.takePanel = { s with
      queue :=
        { fifo := s.queue.fifo.set s.queue.head (Slot.empty s.cfg)
          head := (s.queue.head + 1) % s.cfg.queueCapacity
          count := s.queue.count - 1 }
      out := { s.out with
        panelOut := s.memRead .fifo s.queue.head
        panelOutValid := validate s.cfg (s.memRead .fifo s.queue.head) } } := rfl

/-- What taking from the latch leaves, field by field (R123). -/
theorem State.takeDevice_eq (s : State) :
    s.takeDevice = { s with
      latch := { slot := Slot.empty s.cfg, full := false }
      out := { s.out with
        deviceOut := s.latch.slot
        deviceOutValid := deviceValid s.cfg s.latch.slot } } := rfl

/-- A POP_PANEL with nothing to take answers NONE (R121); `exec_popPanel_of_pos` is the other case. -/
theorem exec_popPanel_of_none {s : State} (hl : s.Live)
    (hnone : s.ctl.bound = false ∨ s.queue.count = 0) :
    exec .popPanel s = .next { s with result := some .none } := by
  rw [exec, execPopPanel, State.whenEnabled_of_live hl, if_pos (by simpa using hnone), State.answer]

/-- A POP_DEVICE with nothing to take answers NONE (R123). -/
theorem exec_popDevice_of_none {s : State} (hl : s.Live)
    (hnone : s.ctl.bound = false ∨ s.latch.full = false) :
    exec .popDevice s = .next { s with result := some .none } := by
  rw [exec, execPopDevice, State.whenEnabled_of_live hl, if_pos (by simpa using hnone), State.answer]

/-- A POP_DEVICE with a frame latched takes it and answers its verdict (R123). -/
theorem exec_popDevice_of_full {s : State} (hl : s.Live) (hb : s.ctl.bound = true)
    (hfull : s.latch.full = true) :
    exec .popDevice s = .next { s.takeDevice with
      result := some (verdict (deviceValid s.cfg s.latch.slot)) } := by
  rw [exec, execPopDevice, State.whenEnabled_of_live hl, if_neg (by simp [hb, hfull]), State.answer,
    State.memRead, if_pos rfl]

/-- Settles O32. -/
theorem popPanelTakesTheSlotAtHead : Obligations.PopPanelTakesTheSlotAtHead := by
  intro s hl
  refine ⟨exec_popPanel_of_none hl, fun hb hpos => ?_⟩
  rw [exec_popPanel_of_pos hl hb hpos, State.takePanel_eq, Slot.empty, verdict]

/-- Settles O33. -/
theorem popDeviceTakesTheLatch : Obligations.PopDeviceTakesTheLatch := by
  intro s hl
  refine ⟨exec_popDevice_of_none hl, fun hb hfull => ?_⟩
  rw [exec_popDevice_of_full hl hb hfull, State.takeDevice_eq, Slot.empty, verdict]

/-! ### The flag clears -/

/-- CLR_DOVF is always taken (R127). -/
theorem exec_clrDovf_of_live {s : State} (hl : s.Live) :
    exec .clrDovf s = .next s.clearDataOverflow := State.whenEnabled_of_live hl _

/-- CLR_BOVF is always taken (R128). -/
theorem exec_clrBovf_of_live {s : State} (hl : s.Live) :
    exec .clrBovf s = .next s.clearBufferOverflow := State.whenEnabled_of_live hl _

/-- Settles O41. -/
theorem flagClearsClearOneFlag : Obligations.FlagClearsClearOneFlag := by
  intro s hl
  rw [exec_clrDovf_of_live hl, exec_clrBovf_of_live hl, State.clearDataOverflow,
    State.clearBufferOverflow]
  exact ⟨rfl, rfl⟩

end Sys2Proof.Machine
end

section
/-! PROOF. The integrity validator (R135 to R142): the checksum and its span, when each validator
says valid, and what the two verdicts depend on. -/

namespace Sys2Proof.Machine

/-! ### One byte of a slot -/

/-- The slot with its byte `i` replaced. -/
def Slot.withByte (x : Slot) (i : Nat) (y : Byte) : Slot := { x with bytes := x.bytes.set i y }

theorem Slot.byteAt_withByte_self (x : Slot) {i : Nat} (y : Byte) (hi : i < x.bytes.length) :
    (x.withByte i y).byteAt i = y := by
  simp [Slot.byteAt, Slot.withByte, hi]

theorem Slot.byteAt_withByte_of_ne (x : Slot) {i j : Nat} (y : Byte) (h : j ≠ i) :
    (x.withByte i y).byteAt j = x.byteAt j := by
  simp [Slot.byteAt, Slot.withByte, h.symm]

/-! ### The checksum -/

/-- Sum8 is the sum of the bytes modulo 256 (R136). -/
theorem sum8_toNat (xs : List Byte) : (sum8 xs).toNat = (xs.map BitVec.toNat).sum % 256 :=
  BitVec.toNat_ofNat _ _

theorem checksum_of_sum8 {c : Config} (h : c.checksumFn = .sum8) (xs : List Byte) :
    checksum c xs = sum8 xs := by
  rw [checksum, h]

/-- ChecksumFn is the only parameter the checksum reads (R136). -/
theorem checksum_congr {c c' : Config} (h : c.checksumFn = c'.checksumFn) (xs : List Byte) :
    checksum c xs = checksum c' xs := by
  rw [checksum, checksum, h]

/-! ### The span -/

/-- Leaving out the index 1 is leaving out the second index. -/
theorem filter_range_ne_one (n : Nat) :
    (List.range n).filter (fun i => !(i == 1)) = (List.range n).eraseIdx 1 := by
  obtain hle | hlt := le_or_gt n 1
  · have hall : ∀ i ∈ List.range n, (!(i == 1)) = true := by
      intro i hi
      have hi' := List.mem_range.mp hi
      simpa using show i ≠ 1 by omega
    rw [List.filter_eq_self.mpr hall, List.eraseIdx_of_length_le (by simpa using hle)]
  · have hlt' : 1 < (List.range n).length := by simpa using hlt
    calc (List.range n).filter (fun i => !(i == 1))
        = (List.range n).erase 1 := (List.nodup_range.erase_eq_filter 1).symm
      _ = (List.range n).erase (List.range n)[1] := by rw [List.getElem_range]
      _ = (List.range n).eraseIdx 1 := List.nodup_range.erase_getElem 1 hlt'

theorem Slot.map_byteAt_range {x : Slot} {n : Nat} (hn : n ≤ x.bytes.length) :
    (List.range n).map x.byteAt = x.bytes.take n := by
  refine List.ext_getElem (by simpa using hn) fun i hi _ => ?_
  have hi' : i < n := by simpa using hi
  rw [List.getElem_map, List.getElem_range, List.getElem_take, Slot.byteAt,
    List.getD_eq_getElem _ _ (hi'.trans_le hn)]

/-- The span of a slot that holds its complete bytes, as a part of its bytes (R135, R137). -/
theorem checksumSpan_eq (c : Config) {x : Slot} (hlen : x.byteCount ≤ x.bytes.length) :
    checksumSpan c x = if c.checksumSkipStop then (x.bytes.take (x.byteCount - 1)).eraseIdx 1
      else x.bytes.take (x.byteCount - 1) := by
  have hbytes := Slot.map_byteAt_range ((Nat.sub_le x.byteCount 1).trans hlen)
  cases hskip : c.checksumSkipStop with
  | false => simpa [checksumSpan, hskip] using hbytes
  | true =>
    simp only [checksumSpan, hskip, Bool.true_and, if_true]
    rw [filter_range_ne_one, ← List.eraseIdx_map, hbytes]

/-- The span reads the bytes before the last complete one, and no other (R137). -/
theorem checksumSpan_congr (c : Config) {x y : Slot} (hcount : x.byteCount = y.byteCount)
    (hbytes : ∀ i < x.byteCount - 1, x.byteAt i = y.byteAt i) :
    checksumSpan c x = checksumSpan c y := by
  rw [checksumSpan, checksumSpan, ← hcount]
  refine List.map_congr_left fun i hi => hbytes i ?_
  exact List.mem_range.mp (List.mem_filter.mp hi).1

/-! ### The verdicts -/

theorem Slot.truncated_eq_false_iff {c : Config} {x : Slot} :
    x.truncated c = false ↔ x.bitCount ≤ 8 * c.maxFrameBytes - 7 := by
  rw [Slot.truncated, decide_eq_false_iff_not, not_lt, maxStoredBits]

/-- When a panel frame is valid: it is not truncated, it is long enough, and its last complete byte
is its checksum (R135). -/
theorem validate_iff {c : Config} {x : Slot} : validate c x = true ↔
    x.bitCount ≤ 8 * c.maxFrameBytes - 7 ∧ c.minValidBytes ≤ x.byteCount ∧
    checksum c (checksumSpan c x) = x.byteAt (x.byteCount - 1) := by
  rw [← Slot.truncated_eq_false_iff, validate]
  split_ifs with htrunc hshort
  · simp [htrunc]
  · simp [hshort.not_ge]
  · simp [htrunc, not_lt.mp hshort]

/-- When a device frame is valid (R139). -/
theorem deviceValid_iff {c : Config} {x : Slot} : deviceValid c x = true ↔
    x.bitCount ≤ 8 * c.maxFrameBytes - 7 ∧ 1 ≤ x.byteCount ∧
    (c.deviceChecksum = true → validate c x = true) := by
  rw [← Slot.truncated_eq_false_iff, deviceValid]
  split_ifs with htrunc hnone hon
  · simp [htrunc]
  · simp [hnone.not_ge]
  · simp [htrunc, not_lt.mp hnone, hon]
  · simp [htrunc, not_lt.mp hnone, hon]

/-- The panel verdict depends on the counts and the complete bytes (R137, R141). A slot with no
complete byte is too short to be valid, so that its byte 0 has no part either. -/
theorem validate_congr {c : Config} {x y : Slot} (hmin : 1 ≤ c.minValidBytes)
    (hcount : x.byteCount = y.byteCount) (hbits : x.bitCount = y.bitCount)
    (hbytes : ∀ i < x.byteCount, x.byteAt i = y.byteAt i) : validate c x = validate c y := by
  rw [Bool.eq_iff_iff, validate_iff, validate_iff, ← hcount, ← hbits]
  refine and_congr_right fun _ => and_congr_right fun hlong => ?_
  rw [checksumSpan_congr c hcount fun i hi => hbytes i (by omega),
    hbytes (x.byteCount - 1) (by omega)]

/-- Settles O37: the verdict is `validate_iff`, with the span as `checksumSpan_eq` writes it. -/
theorem validateIsTheExactChecksum : Obligations.ValidateIsTheExactChecksum := by
  refine ⟨rfl, fun c xs h => ?_, fun c c' xs h => checksum_congr h xs,
    fun c x => ⟨fun htrunc => ?_, fun hshort => ?_, fun hbits hlong hlen _ => ?_⟩⟩
  · rw [checksum_of_sum8 h, sum8_toNat]
  · exact Bool.eq_false_iff.mpr fun hvalid => htrunc.not_ge (validate_iff.mp hvalid).1
  · exact Bool.eq_false_iff.mpr fun hvalid => hshort.not_ge (validate_iff.mp hvalid).2.1
  · rw [validate_iff, checksumSpan_eq c hlen, Slot.byteAt]
    exact ⟨fun ⟨_, _, hsum⟩ => hsum, fun hsum => ⟨hbits, hlong, hsum⟩⟩

/-- Settles O38: the changed byte is outside the span, whose checksum is still the old byte. -/
theorem aWrongChecksumByteIsRejected : Obligations.AWrongChecksumByteIsRejected := by
  intro c x y hwf hinv hvalid hne
  change validate c (x.withByte (x.byteCount - 1) y) = false
  obtain ⟨-, -, -, -, -, -, -, hmin⟩ := c.wf_iff.mp hwf
  obtain ⟨-, hlong, hsum⟩ := validate_iff.mp hvalid
  have hlt : x.byteCount - 1 < x.bytes.length := by
    have hle : x.byteCount ≤ x.bytes.length := hinv.size ▸ hinv.byteCountLe
    omega
  have hspan : checksumSpan c (x.withByte (x.byteCount - 1) y) = checksumSpan c x :=
    checksumSpan_congr c rfl fun i hi => x.byteAt_withByte_of_ne y (Nat.ne_of_lt hi)
  refine Bool.eq_false_iff.mpr fun hvalid' => hne ?_
  obtain ⟨-, -, hsum'⟩ := validate_iff.mp hvalid'
  calc y = (x.withByte (x.byteCount - 1) y).byteAt (x.byteCount - 1) :=
        (x.byteAt_withByte_self y hlt).symm
    _ = checksum c (checksumSpan c (x.withByte (x.byteCount - 1) y)) := hsum'.symm
    _ = checksum c (checksumSpan c x) := by rw [hspan]
    _ = x.byteAt (x.byteCount - 1) := hsum

/-- Settles O39. -/
theorem trailingBitsDoNotChangeTheVerdict : Obligations.TrailingBitsDoNotChangeTheVerdict := by
  intro c x y hwf hcount hbits hbytes
  obtain ⟨-, -, -, -, -, -, -, hmin⟩ := c.wf_iff.mp hwf
  have hpanel : validate c x = validate c y := validate_congr (by omega) hcount hbits hbytes
  refine ⟨hpanel, ?_⟩
  rw [Bool.eq_iff_iff, deviceValid_iff, deviceValid_iff, hcount, hbits, hpanel]

/-- Settles O40. -/
theorem deviceVerdict : Obligations.DeviceVerdict := by
  refine fun c x => ⟨fun hbad => Bool.eq_false_iff.mpr fun hvalid => ?_,
    fun hbits hone => ⟨fun hon => ?_, fun hoff => ?_⟩⟩
  · obtain ⟨hbits, hone, -⟩ := deviceValid_iff.mp hvalid
    omega
  · rw [Bool.eq_iff_iff, deviceValid_iff]
    exact ⟨fun ⟨_, _, hpanel⟩ => hpanel hon, fun hvalid => ⟨hbits, hone, fun _ => hvalid⟩⟩
  · exact deviceValid_iff.mpr ⟨hbits, hone, by simp [hoff]⟩

end Sys2Proof.Machine
end

section
/-! PROOF. The writer's output stage (R145 to R156): what a staging answers, what an EDGE injects,
the eight bits of a key, and DOUT with writes disabled. -/

namespace Sys2Proof.Machine

/-! ### The stagings -/

/-- A staging that is turned away writes the result only (R145, R147). -/
theorem State.stage_of_rejected {s : State} (hl : s.Live) {ks : List Byte}
    (hr : s.stageRejected ks = true) : s.stage ks = .next { s with result := some .reject } := by
  rw [State.stage, State.whenEnabled_of_live hl, if_pos hr, State.answer]

/-- A staging that is not turned away stages its job from the first bit of the first key (R147). -/
theorem State.stage_of_accepted {s : State} (hl : s.Live) {ks : List Byte}
    (hr : s.stageRejected ks = false) :
    s.stage ks = .next { s.withJob ks with result := some .accept } := by
  rw [State.stage, State.whenEnabled_of_live hl, if_neg (by simp [hr]), State.answer]

theorem State.stageRejected_eq_false {s : State} {ks : List Byte} (hb : s.ctl.bound = true)
    (hw : s.ctl.writeEnabled = true) (hp : s.inj.writePending = false) (hpos : 0 < ks.length)
    (hmax : ks.length ≤ s.cfg.maxJobKeys) : s.stageRejected ks = false := by
  rw [Bool.eq_false_iff, Ne, State.stageRejected_iff]
  simp [hb, hw, hp, hmax, List.length_pos_iff.mp hpos]

/-- Settles O43. -/
theorem stageSeqStagesOneJob : Obligations.StageSeqStagesOneJob := by
  intro ks s hl
  exact ⟨fun hr => State.stage_of_rejected hl ((s.stageRejected_iff ks).mpr hr),
    fun hb hw hp hpos hmax => State.stage_of_accepted hl
      (State.stageRejected_eq_false hb hw hp hpos hmax)⟩

/-- Settles O44, from O43: R8's `1 ≤ K` makes a job of one key never too long. -/
theorem stageKeyIsAOneKeySequence : Obligations.StageKeyIsAOneKeySequence := by
  intro k s hl
  obtain ⟨hreject, haccept⟩ := stageSeqStagesOneJob [k] s hl
  obtain ⟨-, -, -, -, -, -, hmax, -⟩ := (Config.wf_iff s.cfg).mp hl.1
  refine ⟨rfl, fun hb hw hp => haccept hb hw hp Nat.one_pos hmax, fun hr => hreject ?_⟩
  obtain hb | hw | hp := hr
  · exact .inl hb
  · exact .inr (.inl hw)
  · exact .inr (.inr (.inl hp))

/-! ### Inject

`Injector.afterBit` case by case, and the level of a driven bit in the terms of R150. -/

theorem keyBit_eq (order : BitOrder) (k : Byte) (n : Nat) :
    keyBit order k n = if order = .msbFirst then k.getLsbD (7 - n) else k.getLsbD n := by
  cases order <;> rfl

@[simp] theorem Injector.afterBit_dout (j : Injector) (v : Bit) :
    (j.afterBit v).dout = some v := by
  obtain ⟨-, h⟩ | ⟨-, -, h⟩ | ⟨-, -, h⟩ := j.afterBit_cases v <;> rw [h]

theorem Injector.afterBit_of_midKey {j : Injector} (h : j.bitIdx + 1 ≠ 8) (v : Bit) :
    j.afterBit v = { j with dout := some v, bitIdx := j.bitIdx + 1 } := by
  rw [Injector.afterBit, if_neg h]

theorem Injector.afterBit_of_endOfKey {j : Injector} (h : j.bitIdx + 1 = 8)
    (hmore : j.keyIdx + 1 ≠ j.job.length) (v : Bit) :
    j.afterBit v =
      { j with dout := some v, bitIdx := 0, writeReady := false, keyIdx := j.keyIdx + 1 } := by
  rw [Injector.afterBit, if_pos h, if_neg hmore]

theorem Injector.afterBit_of_endOfJob {j : Injector} (h : j.bitIdx + 1 = 8)
    (hlast : j.keyIdx + 1 = j.job.length) (v : Bit) :
    j.afterBit v =
      { writePending := false, job := [], keyIdx := 0, bitIdx := 0, writeReady := false,
        dout := some v } := by
  rw [Injector.afterBit, if_pos h, if_pos hlast]

theorem State.inject_of_injects {s : State} {sampled : Bool} (h : s.injects sampled = true) :
    s.inject sampled = { s with inj := s.inj.afterBit s.driveLevel } := by
  rw [State.inject, if_pos h]

theorem State.inject_of_not_injects {s : State} {sampled : Bool} (h : ¬s.injects sampled = true) :
    s.inject sampled = { s with inj := { s.inj with dout := none } } := by
  rw [State.inject, if_neg h]

/-! ### What an EDGE injects -/

/-- The handshake flag at an EDGE's injection: the window was open, or the edge switches to Device
(R149); tied to the model by `State.atInjection_inj_eq`. -/
def State.readyAtEdge (s : State) (l : Bit) (t : Nat) : Bit :=
  s.inj.writeReady || (decide (s.edge.dir = .panel) && decide (s.classify l t = .device))

/-- The injector with the handshake flag at `ready`. -/
def Injector.withReady (j : Injector) (ready : Bit) : Injector := { j with writeReady := ready }

theorem State.atInjection_inj_eq (s : State) (l : Bit) (t : Nat) :
    (s.atInjection l t).inj = s.inj.withReady (s.readyAtEdge l t) := s.atInjection_inj l t

/-- The edge and the window write nothing that the level depends on. -/
theorem State.atInjection_driveLevel (s : State) (l : Bit) (t : Nat) :
    (s.atInjection l t).driveLevel = s.driveLevel := by
  rw [State.driveLevel, State.atInjection_inj_eq]
  simp [State.driveLevel, State.atInjection, Injector.withReady]

/-- The condition of R150 for an EDGE, on the state before it: the window may open at this edge. -/
theorem State.atInjection_injects_iff (s : State) (l : Bit) (t : Nat) (sampled : Bool) :
    (s.atInjection l t).injects sampled = true ↔
      sampled = true ∧ s.classify l t = .device ∧ s.readyAtEdge l t = true ∧
      s.inj.writePending = true ∧ s.ctl.writeEnabled = true ∧
      (0 < s.inj.bitIdx ∨ s.device.bitCount = s.cfg.injectStartBit) := by
  rw [State.injects_iff, State.atInjection_edge_dir, State.atInjection_inj_eq]
  simp [State.atInjection, Injector.withReady]

theorem State.takeEdge_dir (s : State) (l : Bit) (t : Nat) :
    (s.takeEdge l t).edge.dir = s.classify l t := by
  rw [State.takeEdge_edge]

/-- The injector after a taken EDGE that drives. -/
theorem State.takeEdge_inj_of_injects {s : State} {l : Bit} {t : Nat}
    (h : (s.atInjection l t).injects (Config.samples s.cfg l) = true) :
    (s.takeEdge l t).inj = (s.inj.withReady (s.readyAtEdge l t)).afterBit s.driveLevel := by
  rw [State.takeEdge_inj, State.inject_of_injects h, State.atInjection_driveLevel,
    State.atInjection_inj_eq]

/-- The injector after a taken EDGE that does not drive. -/
theorem State.takeEdge_inj_of_not_injects {s : State} {l : Bit} {t : Nat}
    (h : ¬(s.atInjection l t).injects (Config.samples s.cfg l) = true) :
    (s.takeEdge l t).inj = { s.inj.withReady (s.readyAtEdge l t) with dout := none } := by
  rw [State.takeEdge_inj, State.inject_of_not_injects h, State.atInjection_inj_eq]

/-- Settles O16: the EDGE is taken, and its injection drives exactly under R150's condition. -/
theorem edgeInjectsOrReleases : Obligations.EdgeInjectsOrReleases := by
  intro l t s hl hb hp htime hclk _
  refine ⟨s.takeEdge l t, execEdge_taken hl hb hp ((laterThan_eq_false _ t).mpr htime) hclk, ?_⟩
  have hdrives := s.atInjection_injects_iff l t (Config.samples s.cfg l)
  rw [Config.samples_iff, State.readyAtEdge] at hdrives
  simp only [s.takeEdge_dir, ← keyBit_eq, ← hdrives]
  refine ⟨fun hno => ?_, fun hdrive hmid => ?_, fun hdrive hend hmore => ?_,
    fun hdrive hend hlast => ?_⟩
  · exact State.takeEdge_inj_of_not_injects hno
  · exact (State.takeEdge_inj_of_injects hdrive).trans
      (Injector.afterBit_of_midKey (by exact hmid) _)
  · exact (State.takeEdge_inj_of_injects hdrive).trans
      (Injector.afterBit_of_endOfKey (by exact hend) (by exact hmore) _)
  · exact (State.takeEdge_inj_of_injects hdrive).trans
      (Injector.afterBit_of_endOfJob (by exact hend) (by exact hlast) _)

/-- Settles O20: in a bound block an EDGE is not ignored, one that raises a model fault is excluded,
and one that is taken leaves DOUT driven only by its injection. -/
theorem dataOutIsDrivenOnlyInTheDeviceWindow :
    Obligations.DataOutIsDrivenOnlyInTheDeviceWindow := by
  intro l t s s' v hb _ h hf hv
  obtain ⟨-, ⟨hunbound, -⟩ | ⟨-, -, ⟨-, rfl⟩ | ⟨-, -, -, rfl⟩ | ⟨-, -, -, rfl⟩ | ⟨-, -, -, rfl⟩⟩⟩ :=
    execEdge_cases h
  case inl => exact nomatch hb.symm.trans hunbound
  case inr.inr.inr.inr =>
    by_cases hdrive : (s.atInjection l t).injects (Config.samples s.cfg l) = true
    · obtain ⟨-, hdev, hready, hpending, henabled, -⟩ :=
        (s.atInjection_injects_iff l t _).mp hdrive
      rw [State.readyAtEdge, Bool.or_eq_true, Bool.and_eq_true, decide_eq_true_eq] at hready
      rw [State.takeEdge_inj_of_injects hdrive, Injector.afterBit_dout, Option.some_inj,
        State.driveLevel, keyBit_eq, ← apply_ite] at hv
      exact ⟨(s.takeEdge_dir l t).trans hdev, hready.imp_right And.left, hpending, henabled,
        hv.symm⟩
    · rw [State.takeEdge_inj_of_not_injects hdrive] at hv
      exact nomatch hv
  all_goals exact nomatch hf

/-! ### The eight bits of a key -/

/-- A key's slot at its start: the state from which the key's first bit is due (R150). -/
structure State.AtKeyStart (s : State) : Prop where
  dir : s.edge.dir = .device
  ready : s.inj.writeReady = true
  pending : s.inj.writePending = true
  enabled : s.ctl.writeEnabled = true
  bitIdx : s.inj.bitIdx = 0
  slot : s.device.bitCount = s.cfg.injectStartBit

/-- `s` with `n` bits of the key driven and DOUT at `d`. -/
def State.withBitsDriven (s : State) (n : Nat) (d : Option Bit) : State :=
  { s with inj := { s.inj with bitIdx := n, dout := d } }

theorem State.withBitsDriven_self (s : State) : s.withBitsDriven s.inj.bitIdx s.inj.dout = s := rfl

theorem State.withBitsDriven_driveLevel (s : State) (n : Nat) (d : Option Bit) :
    (s.withBitsDriven n d).driveLevel =
      (keyBit s.cfg.bitOrder (s.inj.job.getD s.inj.keyIdx 0#8) n ^^ s.cfg.outputInvert) := rfl

theorem State.AtKeyStart.injects {s : State} (h : s.AtKeyStart) (n : Nat) (d : Option Bit) :
    (s.withBitsDriven n d).injects true = true :=
  (State.injects_iff _ true).mpr
    ⟨rfl, h.dir, h.ready, h.pending, h.enabled,
      (Nat.eq_zero_or_pos n).symm.imp_right fun _ => h.slot⟩

/-- Before the eighth bit an injection moves on to the next bit. -/
theorem State.AtKeyStart.inject_midKey {s : State} (h : s.AtKeyStart) {n : Nat} (hn : n < 7)
    (d : Option Bit) :
    (s.withBitsDriven n d).inject true =
      s.withBitsDriven (n + 1) (some (s.withBitsDriven n d).driveLevel) := by
  rw [State.inject_of_injects (h.injects n d),
    Injector.afterBit_of_midKey (show n + 1 ≠ 8 by omega)]
  rfl

/-- `n` injections at sampled edges, with nothing in between. -/
def State.injectTimes (s : State) (n : Nat) : State := (fun x : State => x.inject true)^[n] s

theorem State.iterate_inject (s : State) (n : Nat) :
    (fun x : State => x.inject true)^[n] s = s.injectTimes n := rfl

theorem State.injectTimes_succ (s : State) (n : Nat) :
    s.injectTimes (n + 1) = (s.injectTimes n).inject true :=
  Function.iterate_succ_apply' _ n s

/-- Up to the eighth bit, `n` injections have driven `n` bits of the key. -/
theorem State.AtKeyStart.injectTimes {s : State} (h : s.AtKeyStart) {n : Nat} (hn : n < 8) :
    ∃ d, s.injectTimes n = s.withBitsDriven n d := by
  induction n with
  | zero =>
    have hself := s.withBitsDriven_self
    rw [h.bitIdx] at hself
    exact ⟨s.inj.dout, hself.symm⟩
  | succ n ih =>
    obtain ⟨d, hd⟩ := ih (by omega)
    exact ⟨_, by rw [s.injectTimes_succ, hd, h.inject_midKey (by omega)]⟩

/-- Injection number `n` of a key's slot, counted from 0, drives bit `n` of the key. -/
theorem State.AtKeyStart.injectTimes_dout {s : State} (h : s.AtKeyStart) {n : Nat} (hn : n < 8) :
    (s.injectTimes (n + 1)).inj.dout =
      some (keyBit s.cfg.bitOrder (s.inj.job.getD s.inj.keyIdx 0#8) n ^^ s.cfg.outputInvert) := by
  obtain ⟨d, hd⟩ := h.injectTimes hn
  rw [s.injectTimes_succ, hd, State.inject_of_injects (h.injects n d), Injector.afterBit_dout,
    State.withBitsDriven_driveLevel]

/-- The eighth injection of a key's slot closes the window (R149), and reaches the next key or the end
of the job (R151). -/
theorem State.AtKeyStart.injectTimes_eight {s : State} (h : s.AtKeyStart) :
    ∃ d, (s.injectTimes 8).inj =
      if s.inj.keyIdx + 1 = s.inj.job.length then
        { writePending := false, job := [], keyIdx := 0, bitIdx := 0, writeReady := false
          dout := d }
      else
        { s.inj with bitIdx := 0, writeReady := false, keyIdx := s.inj.keyIdx + 1, dout := d } := by
  obtain ⟨d, hd⟩ := h.injectTimes (show 7 < 8 by omega)
  refine ⟨some (s.withBitsDriven 7 d).driveLevel, ?_⟩
  rw [s.injectTimes_succ, hd, State.inject_of_injects (h.injects 7 d)]
  split
  case isTrue hlast =>
    exact Injector.afterBit_of_endOfJob (j := (s.withBitsDriven 7 d).inj) rfl hlast _
  case isFalse hmore =>
    exact Injector.afterBit_of_endOfKey (j := (s.withBitsDriven 7 d).inj) rfl hmore _

/-- With the window closed an injection releases DOUT (R149, R150). -/
theorem State.inject_dout_of_closed {s : State} (h : s.inj.writeReady = false) (sampled : Bool) :
    (s.inject sampled).inj.dout = none := by
  have hno : ¬s.injects sampled = true := by simp [State.injects_iff, h]
  rw [State.inject_of_not_injects hno]

/-- Settles O21: the first eight injections drive the key, and the ninth finds the window closed. -/
theorem aKeyIsDrivenBitByBitInOrder : Obligations.AKeyIsDrivenBitByBitInOrder := by
  intro s hdir hready hpending _ henabled hbit hslot
  have hstart : s.AtKeyStart := ⟨hdir, hready, hpending, henabled, hbit, hslot⟩
  obtain ⟨d, hinj⟩ := hstart.injectTimes_eight
  obtain ⟨hwindow, hindex⟩ :
      (s.injectTimes 8).inj.writeReady = false ∧ (s.injectTimes 8).inj.bitIdx = 0 := by
    rw [hinj]
    split <;> exact ⟨rfl, rfl⟩
  simp only [State.iterate_inject, ← keyBit_eq]
  refine ⟨fun n hn => hstart.injectTimes_dout hn, hwindow, hindex, fun hmore => ?_,
    fun hlast => ?_, ?_⟩
  · rw [hinj, if_neg hmore]
    exact ⟨hpending, rfl, rfl⟩
  · rw [hinj, if_pos hlast]
    exact ⟨rfl, rfl, rfl⟩
  · rw [s.injectTimes_succ]
    exact State.inject_dout_of_closed hwindow true

/-! ### Reachable states -/

/-- R36 holds in every state a run of a well-formed configuration reaches. -/
theorem Reachable.inv {c : Config} (hw : c.wf = true) {s : State} (h : Reachable c s) : s.Inv := by
  induction h with
  | powerUp => exact State.resetWith_inv hw
  | given more _ ih => exact ih.ofPorts _ _ _
  | stepped _ hstep ih => exact everyStepKeepsTheInvariant _ _ ih hstep

/-- Settles O52, by R36's clause that a driven DOUT has writes enabled. -/
theorem writesDisabledNeverDrives : Obligations.WritesDisabledNeverDrives := by
  intro c s hw hreach hoff
  by_contra hdriven
  exact nomatch hoff.symm.trans ((hreach.inv hw).drivenEnabled hdriven)

end Sys2Proof.Machine
end

section
/-! PROOF. Before INIT (R161): a block that is not bound ignores the clock and the boundary timer, and
a flag that is 0 is left alone by its clear. -/

namespace Sys2Proof.Machine

/-- Before INIT an EDGE is ignored, whatever its level and time (R161). -/
theorem exec_edge_of_unbound {s : State} (hl : s.Live) (hb : s.ctl.bound = false) (l : Bit) (t : Nat) :
    exec (.edge l t) s = .next s := by
  rw [exec, execEdge, State.whenEnabled_of_live hl, if_pos (by simp [hb])]

/-- Before INIT a TICK is ignored, whatever its time (R161). -/
theorem exec_tick_of_unbound {s : State} (hl : s.Live) (hb : s.ctl.bound = false) (t : Nat) :
    exec (.tick t) s = .next s := by
  rw [exec, execTick, State.whenEnabled_of_live hl, if_pos (by simp [hb])]

theorem State.clearDataOverflow_eq_self {s : State} (h : s.flags.dataOverflow = false) :
    s.clearDataOverflow = s := by
  rw [State.clearDataOverflow, ← h]

theorem State.clearBufferOverflow_eq_self {s : State} (h : s.flags.bufferOverflow = false) :
    s.clearBufferOverflow = s := by
  rw [State.clearBufferOverflow, ← h]

/-- Settles O14: not being bound is the first test of EDGE and TICK, and a reason for each poll to
answer NONE and for each staging to be rejected; the SAMPLE has nothing pending, and each clear writes
the 0 that its flag holds. -/
theorem beforeInitNothingIsCaptured : Obligations.BeforeInitNothingIsCaptured := by
  intro s hl hb hp hflags
  have hreject (ks : List Byte) : s.stage ks = .next { s with result := some .reject } :=
    State.stage_of_rejected hl ((s.stageRejected_iff ks).mpr (.inl hb))
  refine ⟨exec_edge_of_unbound hl hb, exec_tick_of_unbound hl hb,
    fun b => sampleNeedsAPendingSample b s hl hp, exec_popPanel_of_none hl (.inl hb),
    exec_popDevice_of_none hl (.inl hb), fun k => hreject [k], hreject, ?_, ?_⟩
  · rw [exec_clrDovf_of_live hl, State.clearDataOverflow_eq_self (by rw [hflags])]
  · rw [exec_clrBovf_of_live hl, State.clearBufferOverflow_eq_self (by rw [hflags])]

end Sys2Proof.Machine
end

section
/-! PROOF. The flag clears race only with the setter of their flag (R171). The flags are written and
never tested, so an operation commutes with every change of the flags that commutes with what the
operation itself writes to them. -/

namespace Sys2Proof.Machine

/-! ### What an operation writes to the flags -/

/-- What an operation does to the flags when it writes them. -/
def flagWrite : Instr → StickyFlags → StickyFlags
  | .init _, _ => { dataOverflow := false, bufferOverflow := false }
  | .sample _, f => { f with dataOverflow := true }
  | .tick _, f => { f with bufferOverflow := true }
  | .clrDovf, f => { f with dataOverflow := false }
  | .clrBovf, f => { f with bufferOverflow := false }
  | .edge _ _, f => f
  | .popPanel, f => f
  | .popDevice, f => f
  | .stageKey _, f => f
  | .stageSeq _, f => f

/-- CLR_DOVF commutes on the flags with every other operation but the setter of its flag. -/
theorem flagWrite_clrDovf_commute {i : Instr} (hi : ∀ b, i ≠ .sample b) :
    Function.Commute (flagWrite .clrDovf) (flagWrite i) := by
  cases i with
  | sample b => exact absurd rfl (hi b)
  | _ => exact fun _ => rfl

/-- CLR_BOVF commutes on the flags with every other operation but the setter of its flag. -/
theorem flagWrite_clrBovf_commute {i : Instr} (hi : ∀ t, i ≠ .tick t) :
    Function.Commute (flagWrite .clrBovf) (flagWrite i) := by
  cases i with
  | tick t => exact absurd rfl (hi t)
  | _ => exact fun _ => rfl

/-! ### The parts of an operation, with the flags changed -/

/-- `s` with its flags changed by `g`. -/
def State.mapFlags (g : StickyFlags → StickyFlags) (s : State) : State :=
  { s with flags := g s.flags }

/-- An outcome with the flags of its next state changed by `g`. -/
def mapFlagsOut (g : StickyFlags → StickyFlags) : Out → Out
  | .next s => .next (s.mapFlags g)
  | .fault r => .fault r
  | .refused r => .refused r

section
variable (g : StickyFlags → StickyFlags) (s : State)

theorem State.whenEnabled_mapFlags (body : Out) :
    (s.mapFlags g).whenEnabled (mapFlagsOut g body) = mapFlagsOut g (s.whenEnabled body) := by
  simp only [State.whenEnabled, apply_ite (mapFlagsOut g)]
  rfl

theorem State.openWindow_mapFlags (d : Dir) :
    (s.mapFlags g).openWindow d = (s.openWindow d).mapFlags g := by
  simp only [State.openWindow, apply_ite (State.mapFlags g)]
  rfl

theorem State.inject_mapFlags (sampled : Bool) :
    (s.mapFlags g).inject sampled = (s.inject sampled).mapFlags g := by
  simp only [State.inject, apply_ite (State.mapFlags g)]
  rfl

theorem State.armSample_mapFlags (sampled : Bool) (t : Nat) :
    (s.mapFlags g).armSample sampled t = (s.armSample sampled t).mapFlags g := by
  simp only [State.armSample, apply_ite (State.mapFlags g)]
  rfl

theorem State.takeEdge_mapFlags (l : Bit) (t : Nat) :
    (s.mapFlags g).takeEdge l t = (s.takeEdge l t).mapFlags g := by
  have hrecord : (s.mapFlags g).recordEdge l t = (s.recordEdge l t).mapFlags g := rfl
  have hclassify : (s.mapFlags g).classify l t = s.classify l t := rfl
  have hcfg : (s.mapFlags g).cfg = s.cfg := rfl
  simp only [State.takeEdge, hrecord, hclassify, hcfg, State.openWindow_mapFlags,
    State.inject_mapFlags, State.armSample_mapFlags]

theorem State.takeSample_mapFlags {g : StickyFlags → StickyFlags} {b : Bit}
    (hg : Function.Commute g (flagWrite (.sample b))) :
    (s.mapFlags g).takeSample b = (s.takeSample b).mapFlags g := by
  have hset (f : StickyFlags) : g { f with dataOverflow := true } =
      { g f with dataOverflow := true } := hg f
  simp only [State.takeSample_eq, State.mapFlags, apply_ite g, hset]
  rfl

theorem State.takeTick_mapFlags {g : StickyFlags → StickyFlags} {t : Nat}
    (hg : Function.Commute g (flagWrite (.tick t))) :
    (s.mapFlags g).takeTick t = (s.takeTick t).mapFlags g := by
  have hset (f : StickyFlags) : g { f with bufferOverflow := true } =
      { g f with bufferOverflow := true } := hg f
  have hhandOff (u : State) : (u.mapFlags g).handOff = u.handOff.mapFlags g := by
    simp only [State.handOff_eq, State.mapFlags, apply_ite g, hset]
  simp only [State.takeTick, apply_ite (State.mapFlags g), ← hhandOff]
  rfl

/-! ### The operations, with the flags changed -/

theorem execEdge_mapFlags (l : Bit) (t : Nat) :
    execEdge l t (s.mapFlags g) = mapFlagsOut g (execEdge l t s) := by
  rw [execEdge, execEdge, ← State.whenEnabled_mapFlags]
  simp only [apply_ite (mapFlagsOut g), State.takeEdge_mapFlags]
  rfl

theorem execSample_mapFlags {g : StickyFlags → StickyFlags} {b : Bit}
    (hg : Function.Commute g (flagWrite (.sample b))) :
    execSample b (s.mapFlags g) = mapFlagsOut g (execSample b s) := by
  rw [execSample, execSample, ← State.whenEnabled_mapFlags]
  simp only [apply_ite (mapFlagsOut g), State.takeSample_mapFlags s hg]
  rfl

theorem execTick_mapFlags {g : StickyFlags → StickyFlags} {t : Nat}
    (hg : Function.Commute g (flagWrite (.tick t))) :
    execTick t (s.mapFlags g) = mapFlagsOut g (execTick t s) := by
  rw [execTick, execTick, ← State.whenEnabled_mapFlags]
  simp only [apply_ite (mapFlagsOut g), State.takeTick_mapFlags s hg]
  rfl

theorem execPopPanel_mapFlags :
    execPopPanel (s.mapFlags g) = mapFlagsOut g (execPopPanel s) := by
  rw [execPopPanel, execPopPanel, ← State.whenEnabled_mapFlags]
  simp only [apply_ite (mapFlagsOut g)]
  rfl

theorem execPopDevice_mapFlags :
    execPopDevice (s.mapFlags g) = mapFlagsOut g (execPopDevice s) := by
  rw [execPopDevice, execPopDevice, ← State.whenEnabled_mapFlags]
  simp only [apply_ite (mapFlagsOut g)]
  rfl

theorem State.stage_mapFlags (ks : List Byte) :
    (s.mapFlags g).stage ks = mapFlagsOut g (s.stage ks) := by
  rw [State.stage, State.stage, ← State.whenEnabled_mapFlags]
  simp only [apply_ite (mapFlagsOut g)]
  rfl

/-- An operation that writes the flags whole, by its `flagWrite`. -/
theorem State.whenEnabled_flagWrite_mapFlags {g : StickyFlags → StickyFlags} {i : Instr}
    (hg : Function.Commute g (flagWrite i)) (u : State) :
    (s.mapFlags g).whenEnabled (.next { u with flags := flagWrite i (g s.flags) }) =
      mapFlagsOut g (s.whenEnabled (.next { u with flags := flagWrite i s.flags })) := by
  rw [← State.whenEnabled_mapFlags, mapFlagsOut, State.mapFlags, State.mapFlags, ← hg s.flags]

/-- Changing the flags before an operation changes them after it, where the change commutes with what
the operation writes to them, and does nothing else to its outcome. -/
theorem exec_mapFlags {g : StickyFlags → StickyFlags} {i : Instr}
    (hg : Function.Commute g (flagWrite i)) :
    exec i (s.mapFlags g) = mapFlagsOut g (exec i s) := by
  cases i with
  | init w => exact s.whenEnabled_flagWrite_mapFlags hg (s.afterInit w)
  | edge l t => exact execEdge_mapFlags g s l t
  | sample b => exact execSample_mapFlags s hg
  | tick t => exact execTick_mapFlags s hg
  | popPanel => exact execPopPanel_mapFlags g s
  | popDevice => exact execPopDevice_mapFlags g s
  | clrDovf => exact s.whenEnabled_flagWrite_mapFlags hg s
  | clrBovf => exact s.whenEnabled_flagWrite_mapFlags hg s
  | stageKey k => exact s.stage_mapFlags g [k]
  | stageSeq ks => exact s.stage_mapFlags g ks

end

/-- Settles O47: a clear is a change of the flags, and commutes with the writes of every operation but
its setter. -/
theorem flagClearsRaceOnlyWithTheirSetter : Obligations.FlagClearsRaceOnlyWithTheirSetter := by
  intro i s s1 s2 h
  have hl := exec_next_live h
  refine ⟨fun hi hclear => ?_, fun hi hclear => ?_⟩
  · obtain ⟨-, rfl⟩ := execClrDovf_cases hclear
    refine ⟨_, exec_clrDovf_of_live hl, ?_⟩
    exact (exec_mapFlags s (flagWrite_clrDovf_commute hi)).trans (congrArg _ h)
  · obtain ⟨-, rfl⟩ := execClrBovf_cases hclear
    refine ⟨_, exec_clrBovf_of_live hl, ?_⟩
    exact (exec_mapFlags s (flagWrite_clrBovf_commute hi)).trans (congrArg _ h)

end Sys2Proof.Machine
end

section
/-! PROOF. A staging and a TICK in either order (R171): both reset the key's bit index, and else a
staging writes the job and the result, and a TICK the capture, the storage, the window and DOUT. -/

namespace Sys2Proof.Machine

/-- `s` after a staging of `ks`, which is turned away or not (R145, R147). -/
def State.staged (s : State) (ks : List Byte) : State :=
  if s.stageRejected ks then { s with result := some .reject }
  else { s.withJob ks with result := some .accept }

theorem State.stage_of_live {s : State} (hl : s.Live) (ks : List Byte) :
    s.stage ks = .next (s.staged ks) := by
  unfold State.staged
  split
  next hr => exact State.stage_of_rejected hl hr
  next hr => exact State.stage_of_accepted hl (Bool.eq_false_iff.mpr hr)

/-- A TICK is no reason to turn a staging away, and none to take it. -/
theorem State.takeTick_stageRejected (s : State) (t : Nat) (ks : List Byte) :
    (s.takeTick t).stageRejected ks = s.stageRejected ks := by
  obtain ⟨-, hpending⟩ := s.takeTick_job t
  simp only [State.stageRejected, State.takeTick_ctl, State.takeTick_cfg, hpending]

theorem State.takeTick_withResult (s : State) (t : Nat) (r : Result) :
    State.takeTick { s with result := some r } t = { s.takeTick t with result := some r } := by
  simp only [State.takeTick, State.handOff_eq,
    apply_ite (fun u : State => { u with result := some r })]
  rfl

theorem State.takeTick_withJob (s : State) (t : Nat) (ks : List Byte) :
    (s.withJob ks).takeTick t = (s.takeTick t).withJob ks := by
  simp only [State.takeTick, State.handOff_eq, apply_ite (State.withJob · ks)]
  rfl

theorem State.takeTick_staged (s : State) (t : Nat) (ks : List Byte) :
    (s.staged ks).takeTick t = (s.takeTick t).staged ks := by
  unfold State.staged
  rw [s.takeTick_stageRejected]
  split
  · exact s.takeTick_withResult t .reject
  · rw [State.takeTick_withResult, State.takeTick_withJob]

theorem State.stage_live {ks : List Byte} {s s' : State} (h : s.stage ks = .next s') : s'.Live := by
  obtain ⟨hwf, hfault⟩ := (State.stage_cases h).1
  exact ⟨by rw [State.stage_cfg h, hwf], (State.stage_fault h).trans hfault⟩

/-- Settles O48: an unbound block ignores the TICK in either order, a TICK that raises a fault is
followed by no staging, and a taken one is taken after the staging too, which leaves alone what the
TICK tests. -/
theorem stagingAndTickCommute : Obligations.StagingAndTickCommute := by
  intro ks t s s1 s2 htick hstage
  have hstaged : s.stage ks = .next (s.staged ks) := State.stage_of_live (exec_next_live htick) ks
  have hlive := State.stage_live hstaged
  obtain ⟨-, -, hedge, hsamp, -, -, hctl⟩ := State.stage_capture hstaged
  refine ⟨s.staged ks, hstaged, ?_⟩
  obtain ⟨-, ⟨hb, rfl⟩ | ⟨hb, hdue, ⟨-, rfl⟩ | ⟨htime, rfl⟩⟩⟩ := execTick_cases htick
  · cases hstaged.symm.trans hstage
    exact exec_tick_of_unbound hlive (by rw [hctl, hb]) t
  · exact nomatch (exec_next_live hstage).2
  · have hswapped := execTick_taken (t := t) hlive (by rw [hctl, hb])
      (by rw [State.sampleDueBy, hsamp, ← State.sampleDueBy, hdue]) (by rw [hedge, htime])
    have hlast : (s.takeTick t).stage ks = .next ((s.takeTick t).staged ks) :=
      State.stage_of_live (exec_next_live hstage) ks
    rw [exec, hswapped, State.takeTick_staged, ← hlast]
    exact hstage

end Sys2Proof.Machine
end

section
/-! PROOF. The timestamps of an admitted run (R167, R170): the latest timestamp never goes back, and
every EDGE and TICK of a bound block that raises no fault takes its own. -/

namespace Sys2Proof.Machine

/-- Only INIT writes the control state (R32). -/
theorem exec_ctl_of_not_init {i : Instr} {s s' : State} (hi : isInit i = false)
    (h : exec i s = .next s') : s'.ctl = s.ctl := by
  cases hc : isConsumerAccess i
  · obtain ⟨-, -, hctl, -⟩ := interruptStepsNeverWriteTheReadSide i s s' hc hi h
    exact hctl
  · obtain ⟨-, -, -, -, -, -, hctl⟩ := exec_capture_of_isConsumerAccess hc h
    exact hctl

@[simp] theorem State.handOff_tLastEvent (s : State) :
    s.handOff.edge.tLastEvent = s.edge.tLastEvent := by
  rw [State.handOff_eq]

theorem State.takeTick_tLastEvent (s : State) (t : Nat) :
    (s.takeTick t).edge.tLastEvent = some t := by
  obtain ⟨-, h⟩ | ⟨-, h⟩ := s.takeTick_cases t <;> rw [h]
  · rfl
  · rw [State.handOff_tLastEvent]
    rfl

/-- What an operation other than INIT does to the latest timestamp of a bound block when it raises no
fault: nothing, a SAMPLE's due time, or the operation's own timestamp, no earlier than the one before
(R92, R95, R111). -/
theorem exec_tLastEvent_cases {i : Instr} {s s' : State} (h : exec i s = .next s')
    (hb : s.ctl.bound = true) (hi : isInit i = false) (hf : s'.fault = none) :
    (timestamp i = none ∧ s'.edge.tLastEvent = s.edge.tLastEvent) ∨
    (timestamp i = none ∧ s.samp.pending = true ∧ s'.edge.tLastEvent = some s.samp.due) ∨
    ∃ t, timestamp i = some t ∧ laterThan s.edge.tLastEvent t = false ∧
      s'.edge.tLastEvent = some t := by
  have hconsumer (hc : isConsumerAccess i = true) : s'.edge.tLastEvent = s.edge.tLastEvent := by
    obtain ⟨-, -, hedge, -⟩ := exec_capture_of_isConsumerAccess hc h
    rw [hedge]
  cases i with
  | init w => cases hi
  | edge l t =>
    obtain ⟨-, ⟨hu, -⟩ | ⟨-, -, ⟨-, rfl⟩ | ⟨-, -, -, rfl⟩ | ⟨-, -, -, rfl⟩ | ⟨htime, -, -, rfl⟩⟩⟩ :=
      execEdge_cases h
    case inl => exact nomatch hb.symm.trans hu
    case inr.inr.inr.inr => exact .inr (.inr ⟨t, rfl, htime, by rw [State.takeEdge_edge]⟩)
    all_goals cases hf
  | sample b =>
    obtain ⟨-, hp, rfl⟩ := execSample_cases h
    exact .inr (.inl ⟨rfl, hp, by rw [State.takeSample_eq]⟩)
  | tick t =>
    obtain ⟨-, ⟨hu, -⟩ | ⟨-, -, ⟨-, rfl⟩ | ⟨htime, rfl⟩⟩⟩ := execTick_cases h
    · exact nomatch hb.symm.trans hu
    · cases hf
    · exact .inr (.inr ⟨t, rfl, htime, s.takeTick_tLastEvent t⟩)
  | popPanel => exact .inl ⟨rfl, hconsumer rfl⟩
  | popDevice => exact .inl ⟨rfl, hconsumer rfl⟩
  | clrDovf => exact .inl ⟨rfl, hconsumer rfl⟩
  | clrBovf => exact .inl ⟨rfl, hconsumer rfl⟩
  | stageKey k => exact .inl ⟨rfl, hconsumer rfl⟩
  | stageSeq ks => exact .inl ⟨rfl, hconsumer rfl⟩

/-- The latest timestamp never goes back: a pending sample is due no earlier than it (R36). -/
theorem exec_tLastEvent_mono {i : Instr} {s s' : State} (hinv : s.Inv)
    (h : exec i s = .next s') (hb : s.ctl.bound = true) (hi : isInit i = false)
    (hf : s'.fault = none) {u : Nat} (hu : s.edge.tLastEvent = some u) :
    ∃ v, s'.edge.tLastEvent = some v ∧ u ≤ v := by
  obtain ⟨-, hkeep⟩ | ⟨-, hp, hdue⟩ | ⟨t, -, htime, ht⟩ := exec_tLastEvent_cases h hb hi hf
  · exact ⟨u, hkeep.trans hu, le_rfl⟩
  · exact ⟨_, hdue, hinv.eventBeforeDue hp u hu⟩
  · exact ⟨t, ht, (laterThan_eq_false _ t).mp htime u hu⟩

theorem exec_takes_timestamp {i : Instr} {s s' : State} (h : exec i s = .next s')
    (hb : s.ctl.bound = true) (hi : isInit i = false) (hf : s'.fault = none) {t : Nat}
    (ht : timestamp i = some t) : s'.edge.tLastEvent = some t := by
  obtain ⟨hnone, -⟩ | ⟨hnone, -⟩ | ⟨t', ht', -, hlast⟩ := exec_tLastEvent_cases h hb hi hf
  · exact nomatch hnone.symm.trans ht
  · exact nomatch hnone.symm.trans ht
  · rw [hlast, ← ht', ht]

/-! ### Admitted runs -/

/-- An admitted run begins with a step, and is admitted after it. -/
theorem AdmittedRun.of_cons {i : Instr} {is : List Instr} {s s' : State}
    (h : AdmittedRun (i :: is) s s') :
    ∃ s1, exec i s = .next s1 ∧ AdmittedRun is s1 s' := by
  obtain ⟨hrun, hend⟩ := h
  cases hx : exec i s with
  | next s1 =>
    rw [runOps_cons_of_next hx] at hrun
    exact ⟨s1, rfl, hrun, hend⟩
  | fault r => simp [runOps, hx] at hrun
  | refused r => simp [runOps, hx] at hrun

/-- An admitted run has no fault where it begins: its first operation, or its end, says so (R33). -/
theorem AdmittedRun.fault_eq_none {ops : List Instr} {s s' : State} (h : AdmittedRun ops s s') :
    s.fault = none := by
  cases ops with
  | nil =>
    obtain ⟨hrun, hend⟩ := h
    cases hrun
    exact hend
  | cons i is =>
    obtain ⟨_, hx, _⟩ := h.of_cons
    exact (exec_next_live hx).2

/-- Settles O49, by induction on the operations: the latest timestamp after the first of them is not
before the one it began with, is the first one's own if it has one, and is before none of the rest. -/
theorem admittedTimestampsNeverDecrease : Obligations.AdmittedTimestampsNeverDecrease := by
  intro ops s s' hinv hb hops hrun
  induction ops generalizing s with
  | nil => exact ⟨.nil, fun _ _ _ ht => nomatch ht⟩
  | cons i is ih =>
    obtain ⟨hi, his⟩ := List.forall_mem_cons.mp hops
    obtain ⟨s1, hx, hrest⟩ := hrun.of_cons
    have hf := hrest.fault_eq_none
    have hb1 : s1.ctl.bound = true := by rw [exec_ctl_of_not_init hi hx, hb]
    obtain ⟨hsorted, hafter⟩ := ih s1 (hinv.exec hx) hb1 his hrest
    have hmono (u : Nat) (hu : s.edge.tLastEvent = some u) :
        ∃ v, s1.edge.tLastEvent = some v ∧ u ≤ v := exec_tLastEvent_mono hinv hx hb hi hf hu
    have hlater (u : Nat) (hu : s.edge.tLastEvent = some u) (t : Nat)
        (ht : t ∈ is.filterMap timestamp) : u ≤ t := by
      obtain ⟨v, hv, huv⟩ := hmono u hu
      exact huv.trans (hafter v hv t ht)
    cases htime : timestamp i with
    | none =>
      rw [List.filterMap_cons_none htime]
      exact ⟨hsorted, hlater⟩
    | some t =>
      have ht := exec_takes_timestamp hx hb hi hf htime
      rw [List.filterMap_cons_some htime]
      refine ⟨List.pairwise_cons.mpr ⟨hafter t ht, hsorted⟩,
        fun u hu => List.forall_mem_cons.mpr ⟨?_, hlater u hu⟩⟩
      obtain ⟨v, hv, huv⟩ := hmono u hu
      cases ht.symm.trans hv
      exact huv

end Sys2Proof.Machine
end
